-- ==== Sys2Proof/Word.lean ====
section
/-! DEFINITION. The two word types of the machine (00_scope.md R9, R11): a byte is 8 bits, a word
is 16 bits. Every field helper over them is in Machine/Bits.lean. -/

namespace Sys2Proof

/-- A register or memory cell: 8 bits (R11). -/
abbrev Byte := BitVec 8

/-- The program counter or a processor address: 16 bits (R11). -/
abbrev Word := BitVec 16

end Sys2Proof
end

