-- ==== Sys2Proof/Machine/Bits.lean ====
section
/-! DEFINITION. Bit-field, byte-order and sign-extension helpers (00_scope.md R9, R10). -/

namespace Sys2Proof

/-- `{hi, lo}`: the word whose high byte is `hi` (R9). -/
def mkWord (hi lo : Byte) : Word := hi ++ lo

/-- Bits 7:0 of a word. -/
def loByte (w : Word) : Byte := w.setWidth 8

/-- Bits 15:8 of a word. -/
def hiByte (w : Word) : Byte := (w >>> 8).setWidth 8

/-- `zext_16` of a byte: its address in page zero (R10, R71). -/
def zeroPage (a : Byte) : Word := a.setWidth 16

/-- The stack address `0x0100 + SP` (R23). -/
def stackAddr (sp : Byte) : Word := 0x0100#16 + sp.setWidth 16

/-- `sext_8` of a byte as a word (R10). -/
def sext8 (v : Byte) : Word := v.signExtend 16

/-- Bit `i` of a vector as a Boolean (R9: `v[i]`). -/
def bitOf {w : Nat} (v : BitVec w) (i : Nat) : Bool := v.getLsbD i

/-- `v[lo + n - 1 : lo]`, a field of `n` bits (R9). -/
def field {w : Nat} (v : BitVec w) (lo n : Nat) : BitVec n := (v >>> lo).setWidth n

/-- `v` with the `n` bits from `lo` up replaced by `x`. -/
def setField {w n : Nat} (v : BitVec w) (lo : Nat) (x : BitVec n) : BitVec w :=
  (v &&& ~~~((BitVec.allOnes n).setWidth w <<< lo)) ||| (x.setWidth w <<< lo)

/-- A Boolean as the number 0 or 1. -/
def bitNat (b : Bool) : Nat := if b then 1 else 0

/-- A Boolean as a vector of width `w` holding 0 or 1. -/
def bitVec (w : Nat) (b : Bool) : BitVec w := (BitVec.ofBool b).setWidth w

end Sys2Proof
end

