-- ==== Sys2Proof/Syntax.lean ====
section
/-! DEFINITION. The instructions (30_encoding.md R181, R182): one constructor per mnemonic of the
opcode table, whose operand says which of the mnemonic's rows it is. -/

namespace Sys2Proof

/-- The addressing modes that give a memory operand its effective address (R164 to R171). -/
inductive Addr where
  | zp (a : Byte)
  | zpx (a : Byte)
  | zpy (a : Byte)
  | abs (a : Word)
  | abx (a : Word)
  | aby (a : Word)
  | izx (a : Byte)
  | izy (a : Byte)
  deriving DecidableEq, Repr

/-- The operand of a read-class instruction: immediate (R163) or in memory. -/
inductive Src where
  | imm (v : Byte)
  | mem (m : Addr)
  deriving DecidableEq, Repr

/-- The memory modes of the read-modify-write class (R179, R181). -/
inductive RmwAddr where
  | zp (a : Byte)
  | zpx (a : Byte)
  | abs (a : Word)
  | abx (a : Word)
  deriving DecidableEq, Repr

/-- The operand of a shift or rotate: the accumulator (R162) or a memory byte. -/
inductive ShiftDst where
  | acc
  | mem (m : RmwAddr)
  deriving DecidableEq, Repr

/-- The target of JMP: absolute (R167) or indirect (R172). -/
inductive JumpTarget where
  | abs (a : Word)
  | ind (ptr : Word)
  deriving DecidableEq, Repr

/-- The instruction set: 56 mnemonics (R181) and the unrecognized opcodes (R182). -/
inductive Instr where
  -- 40_load_store.md
  | lda (src : Src)
  | ldx (src : Src)
  | ldy (src : Src)
  | sta (dst : Addr)
  | stx (dst : Addr)
  | sty (dst : Addr)
  -- 41_transfer_stack.md
  | tax
  | tay
  | txa
  | tya
  | tsx
  | txs
  | pha
  | php
  | pla
  | plp
  -- 42_arithmetic.md
  | adc (src : Src)
  | sbc (src : Src)
  | cmp (src : Src)
  | cpx (src : Src)
  | cpy (src : Src)
  -- 43_inc_dec.md
  | inc (dst : RmwAddr)
  | inx
  | iny
  | dec (dst : RmwAddr)
  | dex
  | dey
  -- 44_logic.md
  | and (src : Src)
  | ora (src : Src)
  | eor (src : Src)
  | bit (src : Addr)
  -- 45_shift_rotate.md
  | asl (dst : ShiftDst)
  | lsr (dst : ShiftDst)
  | rol (dst : ShiftDst)
  | ror (dst : ShiftDst)
  -- 46_branch.md
  | bcc (off : Byte)
  | bcs (off : Byte)
  | beq (off : Byte)
  | bne (off : Byte)
  | bmi (off : Byte)
  | bpl (off : Byte)
  | bvc (off : Byte)
  | bvs (off : Byte)
  -- 47_jump_call.md
  | jmp (target : JumpTarget)
  | jsr (target : Word)
  | rts
  -- 48_flags.md
  | clc
  | sec
  | cli
  | sei
  | clv
  | cld
  | sed
  -- 49_system.md
  | brk
  | rti
  | nop
  | unrecognized (op : Byte)
  deriving DecidableEq, Repr

/-- A read-modify-write mode as the addressing mode it is. -/
def RmwAddr.toAddr : RmwAddr → Addr
  | .zp a => .zp a
  | .zpx a => .zpx a
  | .abs a => .abs a
  | .abx a => .abx a

end Sys2Proof
end

