-- ==== Sys2Proof/WellFormed.lean ====
section
/-! DEFINITION. Which terms of Instr are instructions of the hardware (30_encoding.md R181, R182):
the mnemonic has a row with that addressing mode. -/

namespace Sys2Proof

/-- R182: the 105 unrecognized values of byte 0. -/
def unrecognizedOpcodes : List Byte :=
  [0x02#8, 0x03#8, 0x04#8, 0x07#8, 0x0B#8, 0x0C#8, 0x0F#8, 0x12#8, 0x13#8, 0x14#8, 0x17#8, 0x1A#8, 0x1B#8, 0x1C#8, 0x1F#8]
   ++ [0x22#8, 0x23#8, 0x27#8, 0x2B#8, 0x2F#8, 0x32#8, 0x33#8, 0x34#8, 0x37#8, 0x3A#8, 0x3B#8, 0x3C#8, 0x3F#8, 0x42#8, 0x43#8]
   ++ [0x44#8, 0x47#8, 0x4B#8, 0x4F#8, 0x52#8, 0x53#8, 0x54#8, 0x57#8, 0x5A#8, 0x5B#8, 0x5C#8, 0x5F#8, 0x62#8, 0x63#8, 0x64#8]
   ++ [0x67#8, 0x6B#8, 0x6F#8, 0x72#8, 0x73#8, 0x74#8, 0x77#8, 0x7A#8, 0x7B#8, 0x7C#8, 0x7F#8, 0x80#8, 0x82#8, 0x83#8, 0x87#8]
   ++ [0x89#8, 0x8B#8, 0x8F#8, 0x92#8, 0x93#8, 0x97#8, 0x9B#8, 0x9C#8, 0x9E#8, 0x9F#8, 0xA3#8, 0xA7#8, 0xAB#8, 0xAF#8, 0xB2#8]
   ++ [0xB3#8, 0xB7#8, 0xBB#8, 0xBF#8, 0xC2#8, 0xC3#8, 0xC7#8, 0xCB#8, 0xCF#8, 0xD2#8, 0xD3#8, 0xD4#8, 0xD7#8, 0xDA#8, 0xDB#8]
   ++ [0xDC#8, 0xDF#8, 0xE2#8, 0xE3#8, 0xE7#8, 0xEB#8, 0xEF#8, 0xF2#8, 0xF3#8, 0xF4#8, 0xF7#8, 0xFA#8, 0xFB#8, 0xFC#8, 0xFF#8]

/-- The modes of ORA, AND, EOR, ADC, LDA, CMP, SBC (R181): immediate and every memory mode but zpy. -/
def Src.isAlu : Src → Bool
  | .imm _ | .mem (.zp _) | .mem (.zpx _) | .mem (.abs _) | .mem (.abx _) | .mem (.aby _)
  | .mem (.izx _) | .mem (.izy _) => true
  | .mem (.zpy _) => false

/-- The modes of LDX (R222). -/
def Src.isLdx : Src → Bool
  | .imm _ | .mem (.zp _) | .mem (.zpy _) | .mem (.abs _) | .mem (.aby _) => true
  | .mem (.zpx _) | .mem (.abx _) | .mem (.izx _) | .mem (.izy _) => false

/-- The modes of LDY (R223). -/
def Src.isLdy : Src → Bool
  | .imm _ | .mem (.zp _) | .mem (.zpx _) | .mem (.abs _) | .mem (.abx _) => true
  | .mem (.zpy _) | .mem (.aby _) | .mem (.izx _) | .mem (.izy _) => false

/-- The modes of CPX and CPY (R253, R254). -/
def Src.isIndexCompare : Src → Bool
  | .imm _ | .mem (.zp _) | .mem (.abs _) => true
  | .mem (.zpx _) | .mem (.zpy _) | .mem (.abx _) | .mem (.aby _) | .mem (.izx _)
  | .mem (.izy _) => false

/-- The modes of STA (R224). -/
def Addr.isSta : Addr → Bool
  | .zp _ | .zpx _ | .abs _ | .abx _ | .aby _ | .izx _ | .izy _ => true
  | .zpy _ => false

/-- The modes of STX (R225). -/
def Addr.isStx : Addr → Bool
  | .zp _ | .zpy _ | .abs _ => true
  | .zpx _ | .abx _ | .aby _ | .izx _ | .izy _ => false

/-- The modes of STY (R226). -/
def Addr.isSty : Addr → Bool
  | .zp _ | .zpx _ | .abs _ => true
  | .zpy _ | .abx _ | .aby _ | .izx _ | .izy _ => false

/-- The modes of BIT (R283). -/
def Addr.isBit : Addr → Bool
  | .zp _ | .abs _ => true
  | .zpx _ | .zpy _ | .abx _ | .aby _ | .izx _ | .izy _ => false

/-- Whether the opcode table has a row for the instruction (R181, R182). -/
def Instr.wf : Instr → Bool
  | .lda src | .adc src | .sbc src | .cmp src | .and src | .ora src | .eor src => src.isAlu
  | .ldx src => src.isLdx
  | .ldy src => src.isLdy
  | .cpx src | .cpy src => src.isIndexCompare
  | .sta dst => dst.isSta
  | .stx dst => dst.isStx
  | .sty dst => dst.isSty
  | .bit src => src.isBit
  | .unrecognized op => unrecognizedOpcodes.contains op
  | .tax | .tay | .txa | .tya | .tsx | .txs | .pha | .php | .pla | .plp
  | .inc _ | .inx | .iny | .dec _ | .dex | .dey
  | .asl _ | .lsr _ | .rol _ | .ror _
  | .bcc _ | .bcs _ | .beq _ | .bne _ | .bmi _ | .bpl _ | .bvc _ | .bvs _
  | .jmp _ | .jsr _ | .rts | .clc | .sec | .cli | .sei | .clv | .cld | .sed
  | .brk | .rti | .nop => true

end Sys2Proof
end

