-- ==== Sys2Proof/Decode.lean ====
section
/-! DEFINITION. Decoding (30_encoding.md R160, R177, R181, R182), the encoder, and the opcode table
as the spec prints it. -/

namespace Sys2Proof

/-- The three formats of R160: how many operand bytes follow the opcode, and the instruction they
make. F3's operand is low byte first (R62). -/
inductive Form where
  | f1 (i : Instr)
  | f2 (mk : Byte → Instr)
  | f3 (mk : Word → Instr)

/-- The length in bytes of a format (R160, R176). -/
def Form.length : Form → Nat
  | .f1 _ => 1
  | .f2 _ => 2
  | .f3 _ => 3

/-- A row of R181: opcode, format with mnemonic and mode, base cycles, page-cross penalty. -/
structure OpRow where
  op : Byte
  form : Form
  cycles : Nat
  penalty : Bool

/-- R181, opcodes 0x00 to 0x3F. -/
def opRows0 : List OpRow :=
  [ ⟨0x00#8, .f1 .brk, 7, false⟩,
    ⟨0x01#8, .f2 fun a => .ora (.mem (.izx a)), 6, false⟩,
    ⟨0x05#8, .f2 fun a => .ora (.mem (.zp a)), 3, false⟩,
    ⟨0x06#8, .f2 fun a => .asl (.mem (.zp a)), 5, false⟩,
    ⟨0x08#8, .f1 .php, 3, false⟩,
    ⟨0x09#8, .f2 fun v => .ora (.imm v), 2, false⟩,
    ⟨0x0A#8, .f1 (.asl .acc), 2, false⟩,
    ⟨0x0D#8, .f3 fun a => .ora (.mem (.abs a)), 4, false⟩,
    ⟨0x0E#8, .f3 fun a => .asl (.mem (.abs a)), 6, false⟩,
    ⟨0x10#8, .f2 .bpl, 2, false⟩,
    ⟨0x11#8, .f2 fun a => .ora (.mem (.izy a)), 5, true⟩,
    ⟨0x15#8, .f2 fun a => .ora (.mem (.zpx a)), 4, false⟩,
    ⟨0x16#8, .f2 fun a => .asl (.mem (.zpx a)), 6, false⟩,
    ⟨0x18#8, .f1 .clc, 2, false⟩,
    ⟨0x19#8, .f3 fun a => .ora (.mem (.aby a)), 4, true⟩,
    ⟨0x1D#8, .f3 fun a => .ora (.mem (.abx a)), 4, true⟩,
    ⟨0x1E#8, .f3 fun a => .asl (.mem (.abx a)), 7, false⟩,
    ⟨0x20#8, .f3 .jsr, 6, false⟩,
    ⟨0x21#8, .f2 fun a => .and (.mem (.izx a)), 6, false⟩,
    ⟨0x24#8, .f2 fun a => .bit (.zp a), 3, false⟩,
    ⟨0x25#8, .f2 fun a => .and (.mem (.zp a)), 3, false⟩,
    ⟨0x26#8, .f2 fun a => .rol (.mem (.zp a)), 5, false⟩,
    ⟨0x28#8, .f1 .plp, 4, false⟩,
    ⟨0x29#8, .f2 fun v => .and (.imm v), 2, false⟩,
    ⟨0x2A#8, .f1 (.rol .acc), 2, false⟩,
    ⟨0x2C#8, .f3 fun a => .bit (.abs a), 4, false⟩,
    ⟨0x2D#8, .f3 fun a => .and (.mem (.abs a)), 4, false⟩,
    ⟨0x2E#8, .f3 fun a => .rol (.mem (.abs a)), 6, false⟩,
    ⟨0x30#8, .f2 .bmi, 2, false⟩,
    ⟨0x31#8, .f2 fun a => .and (.mem (.izy a)), 5, true⟩,
    ⟨0x35#8, .f2 fun a => .and (.mem (.zpx a)), 4, false⟩,
    ⟨0x36#8, .f2 fun a => .rol (.mem (.zpx a)), 6, false⟩,
    ⟨0x38#8, .f1 .sec, 2, false⟩,
    ⟨0x39#8, .f3 fun a => .and (.mem (.aby a)), 4, true⟩,
    ⟨0x3D#8, .f3 fun a => .and (.mem (.abx a)), 4, true⟩,
    ⟨0x3E#8, .f3 fun a => .rol (.mem (.abx a)), 7, false⟩ ]

/-- R181, opcodes 0x40 to 0x7F. -/
def opRows4 : List OpRow :=
  [ ⟨0x40#8, .f1 .rti, 6, false⟩,
    ⟨0x41#8, .f2 fun a => .eor (.mem (.izx a)), 6, false⟩,
    ⟨0x45#8, .f2 fun a => .eor (.mem (.zp a)), 3, false⟩,
    ⟨0x46#8, .f2 fun a => .lsr (.mem (.zp a)), 5, false⟩,
    ⟨0x48#8, .f1 .pha, 3, false⟩,
    ⟨0x49#8, .f2 fun v => .eor (.imm v), 2, false⟩,
    ⟨0x4A#8, .f1 (.lsr .acc), 2, false⟩,
    ⟨0x4C#8, .f3 fun a => .jmp (.abs a), 3, false⟩,
    ⟨0x4D#8, .f3 fun a => .eor (.mem (.abs a)), 4, false⟩,
    ⟨0x4E#8, .f3 fun a => .lsr (.mem (.abs a)), 6, false⟩,
    ⟨0x50#8, .f2 .bvc, 2, false⟩,
    ⟨0x51#8, .f2 fun a => .eor (.mem (.izy a)), 5, true⟩,
    ⟨0x55#8, .f2 fun a => .eor (.mem (.zpx a)), 4, false⟩,
    ⟨0x56#8, .f2 fun a => .lsr (.mem (.zpx a)), 6, false⟩,
    ⟨0x58#8, .f1 .cli, 2, false⟩,
    ⟨0x59#8, .f3 fun a => .eor (.mem (.aby a)), 4, true⟩,
    ⟨0x5D#8, .f3 fun a => .eor (.mem (.abx a)), 4, true⟩,
    ⟨0x5E#8, .f3 fun a => .lsr (.mem (.abx a)), 7, false⟩,
    ⟨0x60#8, .f1 .rts, 6, false⟩,
    ⟨0x61#8, .f2 fun a => .adc (.mem (.izx a)), 6, false⟩,
    ⟨0x65#8, .f2 fun a => .adc (.mem (.zp a)), 3, false⟩,
    ⟨0x66#8, .f2 fun a => .ror (.mem (.zp a)), 5, false⟩,
    ⟨0x68#8, .f1 .pla, 4, false⟩,
    ⟨0x69#8, .f2 fun v => .adc (.imm v), 2, false⟩,
    ⟨0x6A#8, .f1 (.ror .acc), 2, false⟩,
    ⟨0x6C#8, .f3 fun a => .jmp (.ind a), 5, false⟩,
    ⟨0x6D#8, .f3 fun a => .adc (.mem (.abs a)), 4, false⟩,
    ⟨0x6E#8, .f3 fun a => .ror (.mem (.abs a)), 6, false⟩,
    ⟨0x70#8, .f2 .bvs, 2, false⟩,
    ⟨0x71#8, .f2 fun a => .adc (.mem (.izy a)), 5, true⟩,
    ⟨0x75#8, .f2 fun a => .adc (.mem (.zpx a)), 4, false⟩,
    ⟨0x76#8, .f2 fun a => .ror (.mem (.zpx a)), 6, false⟩,
    ⟨0x78#8, .f1 .sei, 2, false⟩,
    ⟨0x79#8, .f3 fun a => .adc (.mem (.aby a)), 4, true⟩,
    ⟨0x7D#8, .f3 fun a => .adc (.mem (.abx a)), 4, true⟩,
    ⟨0x7E#8, .f3 fun a => .ror (.mem (.abx a)), 7, false⟩ ]

/-- R181, opcodes 0x80 to 0xBF. -/
def opRows8 : List OpRow :=
  [ ⟨0x81#8, .f2 fun a => .sta (.izx a), 6, false⟩,
    ⟨0x84#8, .f2 fun a => .sty (.zp a), 3, false⟩,
    ⟨0x85#8, .f2 fun a => .sta (.zp a), 3, false⟩,
    ⟨0x86#8, .f2 fun a => .stx (.zp a), 3, false⟩,
    ⟨0x88#8, .f1 .dey, 2, false⟩,
    ⟨0x8A#8, .f1 .txa, 2, false⟩,
    ⟨0x8C#8, .f3 fun a => .sty (.abs a), 4, false⟩,
    ⟨0x8D#8, .f3 fun a => .sta (.abs a), 4, false⟩,
    ⟨0x8E#8, .f3 fun a => .stx (.abs a), 4, false⟩,
    ⟨0x90#8, .f2 .bcc, 2, false⟩,
    ⟨0x91#8, .f2 fun a => .sta (.izy a), 6, false⟩,
    ⟨0x94#8, .f2 fun a => .sty (.zpx a), 4, false⟩,
    ⟨0x95#8, .f2 fun a => .sta (.zpx a), 4, false⟩,
    ⟨0x96#8, .f2 fun a => .stx (.zpy a), 4, false⟩,
    ⟨0x98#8, .f1 .tya, 2, false⟩,
    ⟨0x99#8, .f3 fun a => .sta (.aby a), 5, false⟩,
    ⟨0x9A#8, .f1 .txs, 2, false⟩,
    ⟨0x9D#8, .f3 fun a => .sta (.abx a), 5, false⟩,
    ⟨0xA0#8, .f2 fun v => .ldy (.imm v), 2, false⟩,
    ⟨0xA1#8, .f2 fun a => .lda (.mem (.izx a)), 6, false⟩,
    ⟨0xA2#8, .f2 fun v => .ldx (.imm v), 2, false⟩,
    ⟨0xA4#8, .f2 fun a => .ldy (.mem (.zp a)), 3, false⟩,
    ⟨0xA5#8, .f2 fun a => .lda (.mem (.zp a)), 3, false⟩,
    ⟨0xA6#8, .f2 fun a => .ldx (.mem (.zp a)), 3, false⟩,
    ⟨0xA8#8, .f1 .tay, 2, false⟩,
    ⟨0xA9#8, .f2 fun v => .lda (.imm v), 2, false⟩,
    ⟨0xAA#8, .f1 .tax, 2, false⟩,
    ⟨0xAC#8, .f3 fun a => .ldy (.mem (.abs a)), 4, false⟩,
    ⟨0xAD#8, .f3 fun a => .lda (.mem (.abs a)), 4, false⟩,
    ⟨0xAE#8, .f3 fun a => .ldx (.mem (.abs a)), 4, false⟩,
    ⟨0xB0#8, .f2 .bcs, 2, false⟩,
    ⟨0xB1#8, .f2 fun a => .lda (.mem (.izy a)), 5, true⟩,
    ⟨0xB4#8, .f2 fun a => .ldy (.mem (.zpx a)), 4, false⟩,
    ⟨0xB5#8, .f2 fun a => .lda (.mem (.zpx a)), 4, false⟩,
    ⟨0xB6#8, .f2 fun a => .ldx (.mem (.zpy a)), 4, false⟩,
    ⟨0xB8#8, .f1 .clv, 2, false⟩,
    ⟨0xB9#8, .f3 fun a => .lda (.mem (.aby a)), 4, true⟩,
    ⟨0xBA#8, .f1 .tsx, 2, false⟩,
    ⟨0xBC#8, .f3 fun a => .ldy (.mem (.abx a)), 4, true⟩,
    ⟨0xBD#8, .f3 fun a => .lda (.mem (.abx a)), 4, true⟩,
    ⟨0xBE#8, .f3 fun a => .ldx (.mem (.aby a)), 4, true⟩ ]

/-- R181, opcodes 0xC0 to 0xFF. -/
def opRowsC : List OpRow :=
  [ ⟨0xC0#8, .f2 fun v => .cpy (.imm v), 2, false⟩,
    ⟨0xC1#8, .f2 fun a => .cmp (.mem (.izx a)), 6, false⟩,
    ⟨0xC4#8, .f2 fun a => .cpy (.mem (.zp a)), 3, false⟩,
    ⟨0xC5#8, .f2 fun a => .cmp (.mem (.zp a)), 3, false⟩,
    ⟨0xC6#8, .f2 fun a => .dec (.zp a), 5, false⟩,
    ⟨0xC8#8, .f1 .iny, 2, false⟩,
    ⟨0xC9#8, .f2 fun v => .cmp (.imm v), 2, false⟩,
    ⟨0xCA#8, .f1 .dex, 2, false⟩,
    ⟨0xCC#8, .f3 fun a => .cpy (.mem (.abs a)), 4, false⟩,
    ⟨0xCD#8, .f3 fun a => .cmp (.mem (.abs a)), 4, false⟩,
    ⟨0xCE#8, .f3 fun a => .dec (.abs a), 6, false⟩,
    ⟨0xD0#8, .f2 .bne, 2, false⟩,
    ⟨0xD1#8, .f2 fun a => .cmp (.mem (.izy a)), 5, true⟩,
    ⟨0xD5#8, .f2 fun a => .cmp (.mem (.zpx a)), 4, false⟩,
    ⟨0xD6#8, .f2 fun a => .dec (.zpx a), 6, false⟩,
    ⟨0xD8#8, .f1 .cld, 2, false⟩,
    ⟨0xD9#8, .f3 fun a => .cmp (.mem (.aby a)), 4, true⟩,
    ⟨0xDD#8, .f3 fun a => .cmp (.mem (.abx a)), 4, true⟩,
    ⟨0xDE#8, .f3 fun a => .dec (.abx a), 7, false⟩,
    ⟨0xE0#8, .f2 fun v => .cpx (.imm v), 2, false⟩,
    ⟨0xE1#8, .f2 fun a => .sbc (.mem (.izx a)), 6, false⟩,
    ⟨0xE4#8, .f2 fun a => .cpx (.mem (.zp a)), 3, false⟩,
    ⟨0xE5#8, .f2 fun a => .sbc (.mem (.zp a)), 3, false⟩,
    ⟨0xE6#8, .f2 fun a => .inc (.zp a), 5, false⟩,
    ⟨0xE8#8, .f1 .inx, 2, false⟩,
    ⟨0xE9#8, .f2 fun v => .sbc (.imm v), 2, false⟩,
    ⟨0xEA#8, .f1 .nop, 2, false⟩,
    ⟨0xEC#8, .f3 fun a => .cpx (.mem (.abs a)), 4, false⟩,
    ⟨0xED#8, .f3 fun a => .sbc (.mem (.abs a)), 4, false⟩,
    ⟨0xEE#8, .f3 fun a => .inc (.abs a), 6, false⟩,
    ⟨0xF0#8, .f2 .beq, 2, false⟩,
    ⟨0xF1#8, .f2 fun a => .sbc (.mem (.izy a)), 5, true⟩,
    ⟨0xF5#8, .f2 fun a => .sbc (.mem (.zpx a)), 4, false⟩,
    ⟨0xF6#8, .f2 fun a => .inc (.zpx a), 6, false⟩,
    ⟨0xF8#8, .f1 .sed, 2, false⟩,
    ⟨0xF9#8, .f3 fun a => .sbc (.mem (.aby a)), 4, true⟩,
    ⟨0xFD#8, .f3 fun a => .sbc (.mem (.abx a)), 4, true⟩,
    ⟨0xFE#8, .f3 fun a => .inc (.abx a), 7, false⟩ ]

/-- R181: the 151 recognized opcodes. -/
def opcodeTable : List OpRow := opRows0 ++ opRows4 ++ opRows8 ++ opRowsC

/-- The row of an opcode byte, if it is recognized (R181). -/
def opRow (op : Byte) : Option OpRow := opcodeTable.find? fun r => r.op == op

/-- The format of any opcode byte: its row's, or a one-byte unrecognized instruction (R177, R182). -/
def formOf (op : Byte) : Form :=
  match opRow op with
  | some r => r.form
  | none => .f1 (.unrecognized op)

/-- Base cycles of any opcode byte (R181; 1 for an unrecognized one, R182). -/
def baseCycles (op : Byte) : Nat :=
  match opRow op with
  | some r => r.cycles
  | none => 1

/-- Whether the page-cross penalty applies to an opcode byte (R175, R181). -/
def hasPenalty (op : Byte) : Bool :=
  match opRow op with
  | some r => r.penalty
  | none => false

/-- Why bytes are no instruction: fewer of them than the opcode's length. No opcode is rejected
(R177). -/
inductive DecodeError where
  /-- No byte at all. -/
  | noBytes
  /-- The opcode needs `need` bytes and only `given` are there. -/
  | tooShort (need given : Nat)
  deriving DecidableEq, Repr

/-- The instruction of a format from the bytes after its opcode, and the bytes left over (R160). -/
def Form.read : Form → List Byte → Except DecodeError (Instr × List Byte)
  | .f1 i, rest => .ok (i, rest)
  | .f2 mk, b :: rest => .ok (mk b, rest)
  | .f2 _, [] => .error (.tooShort 2 1)
  | .f3 mk, lo :: hi :: rest => .ok (mk (mkWord hi lo), rest)
  | .f3 _, [_] => .error (.tooShort 3 2)
  | .f3 _, [] => .error (.tooShort 3 1)

/-- Decoding of a list of bytes: the instruction and the bytes after it (R177). -/
def decode : List Byte → Except DecodeError (Instr × List Byte)
  | [] => .error .noBytes
  | op :: rest => (formOf op).read rest

/-- The opcodes of a mnemonic by mode, as its "Encodings" line lists them (files 40 to 45). -/
structure ModeOps where
  imm : Option Byte := none
  zp : Option Byte := none
  zpx : Option Byte := none
  zpy : Option Byte := none
  abs : Option Byte := none
  abx : Option Byte := none
  aby : Option Byte := none
  izx : Option Byte := none
  izy : Option Byte := none

/-- An opcode and a one-byte operand (format F2). -/
def encodeF2 (op : Option Byte) (b : Byte) : List Byte :=
  match op with
  | some o => [o, b]
  | none => []

/-- An opcode and a two-byte operand, low byte first (format F3). -/
def encodeF3 (op : Option Byte) (w : Word) : List Byte :=
  match op with
  | some o => [o, loByte w, hiByte w]
  | none => []

/-- The bytes of a mnemonic with a memory operand. -/
def ModeOps.encodeAddr (m : ModeOps) : Addr → List Byte
  | .zp a => encodeF2 m.zp a
  | .zpx a => encodeF2 m.zpx a
  | .zpy a => encodeF2 m.zpy a
  | .abs a => encodeF3 m.abs a
  | .abx a => encodeF3 m.abx a
  | .aby a => encodeF3 m.aby a
  | .izx a => encodeF2 m.izx a
  | .izy a => encodeF2 m.izy a

/-- The bytes of a mnemonic with an immediate or memory operand. -/
def ModeOps.encodeSrc (m : ModeOps) : Src → List Byte
  | .imm v => encodeF2 m.imm v
  | .mem a => m.encodeAddr a

/-- The bytes of a shift or rotate, whose accumulator opcode is `acc`. -/
def ModeOps.encodeShift (m : ModeOps) (acc : Byte) : ShiftDst → List Byte
  | .acc => [acc]
  | .mem a => m.encodeAddr a.toAddr

/-- LDA, encodings of R221. -/
def ldaOps : ModeOps :=
  { imm := some 0xA9#8, zp := some 0xA5#8, zpx := some 0xB5#8,
    abs := some 0xAD#8, abx := some 0xBD#8, aby := some 0xB9#8, izx := some 0xA1#8, izy := some 0xB1#8 }

/-- LDX, encodings of R222. -/
def ldxOps : ModeOps :=
  { imm := some 0xA2#8, zp := some 0xA6#8, zpy := some 0xB6#8,
    abs := some 0xAE#8, aby := some 0xBE#8 }

/-- LDY, encodings of R223. -/
def ldyOps : ModeOps :=
  { imm := some 0xA0#8, zp := some 0xA4#8, zpx := some 0xB4#8,
    abs := some 0xAC#8, abx := some 0xBC#8 }

/-- STA, encodings of R224. -/
def staOps : ModeOps :=
  { zp := some 0x85#8, zpx := some 0x95#8,
    abs := some 0x8D#8, abx := some 0x9D#8, aby := some 0x99#8, izx := some 0x81#8, izy := some 0x91#8 }

/-- STX, encodings of R225. -/
def stxOps : ModeOps :=
  { zp := some 0x86#8, zpy := some 0x96#8, abs := some 0x8E#8 }

/-- STY, encodings of R226. -/
def styOps : ModeOps :=
  { zp := some 0x84#8, zpx := some 0x94#8, abs := some 0x8C#8 }

/-- ADC, encodings of R250. -/
def adcOps : ModeOps :=
  { imm := some 0x69#8, zp := some 0x65#8, zpx := some 0x75#8,
    abs := some 0x6D#8, abx := some 0x7D#8, aby := some 0x79#8, izx := some 0x61#8, izy := some 0x71#8 }

/-- SBC, encodings of R251. -/
def sbcOps : ModeOps :=
  { imm := some 0xE9#8, zp := some 0xE5#8, zpx := some 0xF5#8,
    abs := some 0xED#8, abx := some 0xFD#8, aby := some 0xF9#8, izx := some 0xE1#8, izy := some 0xF1#8 }

/-- CMP, encodings of R252. -/
def cmpOps : ModeOps :=
  { imm := some 0xC9#8, zp := some 0xC5#8, zpx := some 0xD5#8,
    abs := some 0xCD#8, abx := some 0xDD#8, aby := some 0xD9#8, izx := some 0xC1#8, izy := some 0xD1#8 }

/-- CPX, encodings of R253. -/
def cpxOps : ModeOps :=
  { imm := some 0xE0#8, zp := some 0xE4#8, abs := some 0xEC#8 }

/-- CPY, encodings of R254. -/
def cpyOps : ModeOps :=
  { imm := some 0xC0#8, zp := some 0xC4#8, abs := some 0xCC#8 }

/-- INC, encodings of R265. -/
def incOps : ModeOps :=
  { zp := some 0xE6#8, zpx := some 0xF6#8, abs := some 0xEE#8, abx := some 0xFE#8 }

/-- DEC, encodings of R268. -/
def decOps : ModeOps :=
  { zp := some 0xC6#8, zpx := some 0xD6#8, abs := some 0xCE#8, abx := some 0xDE#8 }

/-- AND, encodings of R280. -/
def andOps : ModeOps :=
  { imm := some 0x29#8, zp := some 0x25#8, zpx := some 0x35#8,
    abs := some 0x2D#8, abx := some 0x3D#8, aby := some 0x39#8, izx := some 0x21#8, izy := some 0x31#8 }

/-- ORA, encodings of R281. -/
def oraOps : ModeOps :=
  { imm := some 0x09#8, zp := some 0x05#8, zpx := some 0x15#8,
    abs := some 0x0D#8, abx := some 0x1D#8, aby := some 0x19#8, izx := some 0x01#8, izy := some 0x11#8 }

/-- EOR, encodings of R282. -/
def eorOps : ModeOps :=
  { imm := some 0x49#8, zp := some 0x45#8, zpx := some 0x55#8,
    abs := some 0x4D#8, abx := some 0x5D#8, aby := some 0x59#8, izx := some 0x41#8, izy := some 0x51#8 }

/-- BIT, encodings of R283. -/
def bitOps : ModeOps :=
  { zp := some 0x24#8, abs := some 0x2C#8 }

/-- ASL, encodings of R290. -/
def aslOps : ModeOps :=
  { zp := some 0x06#8, zpx := some 0x16#8, abs := some 0x0E#8, abx := some 0x1E#8 }

/-- LSR, encodings of R291. -/
def lsrOps : ModeOps :=
  { zp := some 0x46#8, zpx := some 0x56#8, abs := some 0x4E#8, abx := some 0x5E#8 }

/-- ROL, encodings of R292. -/
def rolOps : ModeOps :=
  { zp := some 0x26#8, zpx := some 0x36#8, abs := some 0x2E#8, abx := some 0x3E#8 }

/-- ROR, encodings of R293. -/
def rorOps : ModeOps :=
  { zp := some 0x66#8, zpx := some 0x76#8, abs := some 0x6E#8, abx := some 0x7E#8 }

/-- The bytes of a well-formed instruction, by the "Encodings" lines of files 40 to 49. A term that
has no row gets none. -/
def encode : Instr → List Byte
  | .lda src => ldaOps.encodeSrc src
  | .ldx src => ldxOps.encodeSrc src
  | .ldy src => ldyOps.encodeSrc src
  | .sta dst => staOps.encodeAddr dst
  | .stx dst => stxOps.encodeAddr dst
  | .sty dst => styOps.encodeAddr dst
  | .tax => [0xAA#8]
  | .tay => [0xA8#8]
  | .txa => [0x8A#8]
  | .tya => [0x98#8]
  | .tsx => [0xBA#8]
  | .txs => [0x9A#8]
  | .pha => [0x48#8]
  | .php => [0x08#8]
  | .pla => [0x68#8]
  | .plp => [0x28#8]
  | .adc src => adcOps.encodeSrc src
  | .sbc src => sbcOps.encodeSrc src
  | .cmp src => cmpOps.encodeSrc src
  | .cpx src => cpxOps.encodeSrc src
  | .cpy src => cpyOps.encodeSrc src
  | .inc dst => incOps.encodeAddr dst.toAddr
  | .inx => [0xE8#8]
  | .iny => [0xC8#8]
  | .dec dst => decOps.encodeAddr dst.toAddr
  | .dex => [0xCA#8]
  | .dey => [0x88#8]
  | .and src => andOps.encodeSrc src
  | .ora src => oraOps.encodeSrc src
  | .eor src => eorOps.encodeSrc src
  | .bit src => bitOps.encodeAddr src
  | .asl dst => aslOps.encodeShift 0x0A#8 dst
  | .lsr dst => lsrOps.encodeShift 0x4A#8 dst
  | .rol dst => rolOps.encodeShift 0x2A#8 dst
  | .ror dst => rorOps.encodeShift 0x6A#8 dst
  | .bcc off => [0x90#8, off]
  | .bcs off => [0xB0#8, off]
  | .beq off => [0xF0#8, off]
  | .bne off => [0xD0#8, off]
  | .bmi off => [0x30#8, off]
  | .bpl off => [0x10#8, off]
  | .bvc off => [0x50#8, off]
  | .bvs off => [0x70#8, off]
  | .jmp (.abs a) => encodeF3 (some 0x4C#8) a
  | .jmp (.ind a) => encodeF3 (some 0x6C#8) a
  | .jsr a => encodeF3 (some 0x20#8) a
  | .rts => [0x60#8]
  | .clc => [0x18#8]
  | .sec => [0x38#8]
  | .cli => [0x58#8]
  | .sei => [0x78#8]
  | .clv => [0xB8#8]
  | .cld => [0xD8#8]
  | .sed => [0xF8#8]
  | .brk => [0x00#8]
  | .rti => [0x40#8]
  | .nop => [0xEA#8]
  | .unrecognized op => if unrecognizedOpcodes.contains op then [op] else []

/-- The lowest `k` bytes of a number, least significant first (R160: ascending addresses). -/
def wordBytes : Nat → Nat → List Byte
  | 0, _ => []
  | k + 1, w => BitVec.ofNat 8 w :: wordBytes k (w / 256)

/-- The three bytes, the longest length, whose lowest `nbits` bits are `w`'s and whose others are 0. -/
def tableBytes (nbits w : Nat) : List Byte := wordBytes 3 (w % 2 ^ nbits)

/-- What the decoder reads from an instruction whose bits are `w`, numbered as the opcode table
numbers them. -/
def decodeTableWord (nbits w : Nat) : Option Instr :=
  match decode (tableBytes nbits w) with
  | .ok (i, _) => some i
  | .error _ => none

end Sys2Proof
end

