-- ==== Sys2Proof/Machine/AudioState.lean ====
section
/-! DEFINITION. The Audio Engine's state (62_audio_engine.md R500, R545). -/

namespace Sys2Proof.Machine

/-- The frame sequencer (R500, R504). -/
structure FrameSeq where
  cycle : Nat
  mode5 : Bool
  irqInhibit : Bool
  /-- `frame_irq`. -/
  irqFlag : Bool
  deriving DecidableEq, Repr

/-- An envelope generator: `const_vol`, `vol`, `env_start`, `env_div`, `env_level` (R506). -/
structure Envelope where
  constVol : Bool
  vol : BitVec 4
  start : Bool
  div : BitVec 4
  level : BitVec 4
  deriving DecidableEq, Repr

/-- A pulse generator (R500, R509 to R511). -/
structure Pulse where
  enabled : Bool
  duty : BitVec 2
  seq : BitVec 3
  period : BitVec 11
  timer : BitVec 11
  length : Nat
  /-- Length halt, also envelope loop. -/
  halt : Bool
  env : Envelope
  swEn : Bool
  swPeriod : BitVec 3
  swNeg : Bool
  swShift : BitVec 3
  swReload : Bool
  swDiv : BitVec 3
  deriving DecidableEq, Repr

/-- The triangle generator (R500, R514 to R516). -/
structure Triangle where
  enabled : Bool
  period : BitVec 11
  timer : BitVec 11
  seq : BitVec 5
  length : Nat
  /-- Control, also length halt. -/
  control : Bool
  linReloadVal : BitVec 7
  lin : BitVec 7
  linReload : Bool
  deriving DecidableEq, Repr

/-- The noise generator (R500, R517 to R519). -/
structure Noise where
  enabled : Bool
  mode : Bool
  periodIdx : BitVec 4
  timer : Nat
  lfsr : BitVec 15
  length : Nat
  halt : Bool
  env : Envelope
  deriving DecidableEq, Repr

/-- The delta-modulation channel (R500, R521 to R526). -/
structure Dmc where
  irqEn : Bool
  loop : Bool
  rateIdx : BitVec 4
  timer : Nat
  level : BitVec 7
  startAddr : Word
  startLen : BitVec 12
  curAddr : Word
  remaining : Nat
  /-- A fetched sample byte, or empty. -/
  buffer : Option Byte
  shifter : Byte
  /-- `bits_left`, 0 to 8. -/
  bitsLeft : Nat
  silence : Bool
  /-- `dmc_irq`. -/
  irqFlag : Bool
  deriving DecidableEq, Repr

/-- AudioState (R500). -/
structure Audio where
  frame : FrameSeq
  pulse1 : Pulse
  pulse2 : Pulse
  triangle : Triangle
  noise : Noise
  dmc : Dmc
  tapPos : Nat
  /-- The filter's accumulator (R542), a rational: log entry 12. -/
  acc : Rat
  deriving DecidableEq, Repr

/-- An envelope after reset (R545). -/
def Envelope.reset : Envelope :=
  { constVol := false, vol := 0, start := false, div := 0, level := 0 }

/-- A pulse generator after reset (R545). -/
def Pulse.reset : Pulse :=
  { enabled := false, duty := 0, seq := 0, period := 0, timer := 0, length := 0, halt := false,
    env := Envelope.reset, swEn := false, swPeriod := 0, swNeg := false, swShift := 0,
    swReload := false, swDiv := 0 }

/-- The triangle generator after reset (R545). -/
def Triangle.reset : Triangle :=
  { enabled := false, period := 0, timer := 0, seq := 0, length := 0, control := false,
    linReloadVal := 0, lin := 0, linReload := false }

/-- The noise generator after reset (R545): its shift register holds 1. -/
def Noise.reset : Noise :=
  { enabled := false, mode := false, periodIdx := 0, timer := 0, lfsr := 1, length := 0, halt := false,
    env := Envelope.reset }

/-- The delta-modulation channel after reset (R545). -/
def Dmc.reset : Dmc :=
  { irqEn := false, loop := false, rateIdx := 0, timer := 0, level := 0, startAddr := 0xC000#16,
    startLen := 1, curAddr := 0xC000#16, remaining := 0, buffer := none, shifter := 0, bitsLeft := 8,
    silence := true, irqFlag := false }

/-- The Audio Engine after reset (R545). -/
def Audio.reset : Audio :=
  { frame := { cycle := 0, mode5 := false, irqInhibit := false, irqFlag := false },
    pulse1 := Pulse.reset, pulse2 := Pulse.reset, triangle := Triangle.reset, noise := Noise.reset,
    dmc := Dmc.reset, tapPos := 0, acc := 0 }

end Sys2Proof.Machine
end

