-- ==== Sys2Proof/Machine/CpuState.lean ====
section
/-! DEFINITION. The processor's registers (10_state.md R20 to R30). -/

namespace Sys2Proof.Machine

/-- The six stored flags of the flag byte (R24, R26). Log entry 6. -/
structure Flags where
  /-- carry, bit 0 -/
  c : Bool
  /-- zero, bit 1 -/
  z : Bool
  /-- interrupt-inhibit, bit 2 -/
  i : Bool
  /-- decimal, bit 3 -/
  d : Bool
  /-- overflow, bit 6 -/
  v : Bool
  /-- negative, bit 7 -/
  n : Bool
  deriving DecidableEq, Repr

/-- `irq_lines` (R29): the set of asserted maskable sources, one member a field. -/
structure IrqLines where
  frame : Bool
  dmc : Bool
  mapper : Bool
  deriving DecidableEq, Repr

/-- ProcessorState (R20). -/
structure Cpu where
  a : Byte
  x : Byte
  y : Byte
  sp : Byte
  pc : Word
  p : Flags
  /-- The pending-cycle counter (R28). -/
  pending : Nat
  irq : IrqLines
  /-- `nmi_pending` (R30). -/
  nmi : Bool
  deriving DecidableEq, Repr

/-- Whether the maskable line is asserted: the set is not empty (R29). -/
def IrqLines.any (l : IrqLines) : Bool := l.frame || l.dmc || l.mapper

/-- The empty set of sources. -/
def IrqLines.none : IrqLines := { frame := false, dmc := false, mapper := false }

/-- `PushedP(b)` (R26): {N, V, 1, b, D, I, Z, C}. -/
def Flags.pushed (p : Flags) (b : Bool) : Byte :=
  bitVec 8 p.n <<< 7 ||| bitVec 8 p.v <<< 6 ||| 0x20#8 ||| bitVec 8 b <<< 4 ||| bitVec 8 p.d <<< 3 |||
    bitVec 8 p.i <<< 2 ||| bitVec 8 p.z <<< 1 ||| bitVec 8 p.c

/-- The flags a pulled byte gives: its bits 7, 6, 3, 2, 1, 0 (R26). -/
def Flags.pulled (v : Byte) : Flags :=
  { c := bitOf v 0, z := bitOf v 1, i := bitOf v 2, d := bitOf v 3, v := bitOf v 6, n := bitOf v 7 }

/-- The flags after reset (R34): I set and every other flag clear. -/
def Flags.reset : Flags :=
  { c := false, z := false, i := true, d := false, v := false, n := false }

/-- The processor after reset (R34), its PC and pending-cycle counter given. -/
def Cpu.reset (pc : Word) (pending : Nat) : Cpu :=
  { a := 0x00#8, x := 0x00#8, y := 0x00#8, sp := 0xFD#8, pc := pc, p := Flags.reset,
    pending := pending, irq := IrqLines.none, nmi := false }

end Sys2Proof.Machine
end

