-- ==== Sys2Proof/Config.lean ====
section
/-! DEFINITION. What a session fixes (00_scope.md R8) and the values the spec leaves open. An OPEN
value is an opaque constant: nothing can be proved of which value it is. -/

namespace Sys2Proof

/-- The two regions, selected by cartridge header byte 9 bit 0 (R101). -/
inductive Region where
  | ntsc | pal
  deriving DecidableEq, Repr

/-- The three engines a scheduler tick advances (R561). -/
inductive Engine where
  | processor | video | audio
  deriving DecidableEq, Repr

/-- ENGINE_ORDER (R8, D46): a permutation of the three engines. -/
inductive EngineOrder where
  | pva | pav | vpa | vap | apv | avp
  deriving DecidableEq, Repr

/-- The named parameters of R8 that the spec gives a recommended default: constant over a session. -/
structure Params where
  /-- PRGRAM_ENABLED (D34). -/
  prgRamEnabled : Bool
  /-- PRGRAM_WRITE_PROTECTED (D34). -/
  prgRamWriteProtected : Bool
  /-- OAM_DMA_STALL (D44). -/
  oamDmaStall : Nat
  /-- DMC_STALL (D63). -/
  dmcStall : Nat
  /-- RESET_PENDING (D9). -/
  resetPending : Nat
  /-- ENGINE_ORDER (D46). -/
  engineOrder : EngineOrder
  deriving DecidableEq, Repr

/-- The defaults the spec recommends (R8). -/
def Params.recommended : Params :=
  { prgRamEnabled := true, prgRamWriteProtected := false, oamDmaStall := 513, dmcStall := 4,
    resetPending := 0, engineOrder := .pva }

/-- UNMAPPED_READ_BYTE (R108, D32): OPEN, one byte for the whole session. Log entry 7. -/
opaque Config.unmappedReadByte : Byte

/-- CONTROLLER_EXHAUSTED_BIT (R130, D43): OPEN. Log entry 10. -/
opaque Config.controllerExhaustedBit : Bool

/-- `Buttons(c)` (R128, U12): the button byte of controller `c` at the `n`-th draw, a free input at
every use. Log entry 8. -/
opaque Config.buttons : Nat → Nat → Byte

/-- The byte of the `n`-th read of a disabled save RAM (R109, U1): a fresh free choice. Log entry 9. -/
opaque Config.openBusByte : Nat → Byte

/-- PALETTE_RGBA (R469, D57): OPEN, 64 values of 32 bits. Log entry 11. -/
opaque Config.paletteRgba : BitVec 6 → BitVec 32

/-- MIX_WEIGHTS.p (R541, D64): OPEN. Log entry 12. -/
opaque Config.mixPulse : Rat

/-- MIX_WEIGHTS.t (R541, D64): OPEN. Log entry 12. -/
opaque Config.mixTriangle : Rat

/-- MIX_WEIGHTS.n (R541, D64): OPEN. Log entry 12. -/
opaque Config.mixNoise : Rat

/-- MIX_WEIGHTS.d (R541, D64): OPEN. Log entry 12. -/
opaque Config.mixDmc : Rat

/-- FIR_KERNEL (R542, D64): OPEN, by region and tap. Log entry 12. -/
opaque Config.firKernel : Region → Nat → Rat

/-- How many taps the kernel has beyond 17 (R542: "17 to 19, by region"): OPEN. Log entry 12. -/
opaque Config.firExtraTaps : Region → Fin 3

/-- FIR_DECIMATION (R542): the kernel length, 17 to 19. -/
def Config.firDecimation (r : Region) : Nat := 17 + (Config.firExtraTaps r).val

/-- The conversion of a filtered sample to "16-bit unsigned PCM" (R542): its scaling is OPEN. Log
entry 12. -/
opaque Config.pcm16 : Rat → BitVec 16

/-- What a byte of memory that nothing has written reads as. No source gives it (R131): DESIGN
CHOICE, log entry 1. -/
def Config.blankByte : Byte := 0x00#8

end Sys2Proof
end

