-- ==== Sys2Proof/Machine/Memory.lean ====
section
/-! DEFINITION. A memory of the machine: a list of (address, byte) cells in one canonical form. What
an unlisted address reads as is `Config.blankByte` (log entry 1). -/

namespace Sys2Proof.Machine

/-- A memory: its cells by address. -/
abbrev Memory := List Host.Cell

/-- The byte at an address (R105: "reads return the byte last written"). -/
def Memory.read : Memory → Nat → Byte
  | [], _ => Config.blankByte
  | (k, v) :: m, a => if k = a then v else Memory.read m a

/-- The memory without the cells of an address. -/
def Memory.erase : Memory → Nat → Memory
  | [], _ => []
  | (k, v) :: m, a => if k = a then Memory.erase m a else (k, v) :: Memory.erase m a

/-- The memory with a cell put in at its place. -/
def Memory.place : Memory → Nat → Byte → Memory
  | [], a, b => [(a, b)]
  | (k, v) :: m, a, b => if a < k then (a, b) :: (k, v) :: m else (k, v) :: Memory.place m a b

/-- The memory with a byte written at an address. The byte an unlisted address reads as is not listed. -/
def Memory.write (m : Memory) (a : Nat) (b : Byte) : Memory :=
  if b = Config.blankByte then Memory.erase m a else Memory.place (Memory.erase m a) a b

/-- Every cell lies from `lo` up to `size`, in strictly rising order, and none holds the blank byte. -/
def Memory.wfFrom (size : Nat) : Nat → Memory → Bool
  | _, [] => true
  | lo, (k, v) :: m =>
    decide (lo ≤ k) && decide (k < size) && decide (v ≠ Config.blankByte) &&
      Memory.wfFrom size (k + 1) m

/-- The canonical form of a memory of `size` bytes. -/
def Memory.wf (size : Nat) (m : Memory) : Bool := Memory.wfFrom size 0 m

/-- The cells of consecutive bytes from address `a` up, in canonical form. -/
def Memory.ofBytes : Nat → List Byte → Memory
  | _, [] => []
  | a, b :: bs =>
    if b = Config.blankByte then Memory.ofBytes (a + 1) bs else (a, b) :: Memory.ofBytes (a + 1) bs

end Sys2Proof.Machine
end

