-- ==== Sys2Proof/Machine/Cartridge.lean ====
section
/-! DEFINITION. The Cartridge (21_bus_and_mapper.md R101, R102): a parameter of the machine, carried
unchanged through a run (10_state.md R35). -/

namespace Sys2Proof.Machine

/-- The four mirroring modes of the Bus (R113). -/
inductive Mirroring where
  | horizontal | vertical | singleLow | singleHigh
  deriving DecidableEq, Repr

/-- The Cartridge of R102. -/
structure Cartridge where
  /-- Program ROM, `prgBanks * 16384` bytes. -/
  prg : Memory
  /-- Graphics ROM, `chrBanks * 8192` bytes. -/
  chr : Memory
  /-- Program banks of 16 KB, 1 to 255. -/
  prgBanks : Nat
  /-- Graphics banks of 8 KB, 0 to 255; 0 means character RAM. -/
  chrBanks : Nat
  mirroring : Mirroring
  mapperId : Nat
  region : Region
  /-- Battery-backed save RAM present. -/
  battery : Bool
  deriving DecidableEq, Repr

/-- The ranges of R102, with both ROMs in canonical form. -/
def Cartridge.valid (c : Cartridge) : Bool :=
  decide (1 ≤ c.prgBanks) && decide (c.prgBanks ≤ 255) && decide (c.chrBanks ≤ 255) &&
    decide (c.mapperId ≤ 255) && Memory.wf (c.prgBanks * 16384) c.prg &&
    Memory.wf (c.chrBanks * 8192) c.chr

/-- The cartridge of State.reset: two blank program banks, no graphics ROM, and every header field
at zero. DESIGN CHOICE, log entry 3. -/
def Cartridge.blank : Cartridge :=
  { prg := [], chr := [], prgBanks := 2, chrBanks := 0, mirroring := .horizontal, mapperId := 0,
    region := .ntsc, battery := false }

end Sys2Proof.Machine
end

