-- ==== Sys2Proof/Machine/Mapper.lean ====
section
/-! DEFINITION. The Mapper (21_bus_and_mapper.md R115 to R126): the four variants, their registers
and the four capabilities. -/

namespace Sys2Proof.Machine

/-- The registers of variant (b), the serial shift-register protocol (R117). -/
structure SerialRegs where
  shift : BitVec 5
  /-- How many bits are in `shift`, 0 to 4. -/
  count : Nat
  control : BitVec 5
  chr0 : BitVec 5
  chr1 : BitVec 5
  prgSel : BitVec 5
  deriving DecidableEq, Repr

/-- MapperState's tagged variant (R115): (a) R116, (b) R117, (c) R123, (d) R124. -/
inductive MapperRegs where
  | fixed
  | serial (r : SerialRegs)
  | prgSwitch (bank : Nat)
  | chrSwitch (bank : Nat)
  deriving DecidableEq, Repr

/-- MapperState (R115): the variant's registers and the character RAM. -/
structure MapperState where
  regs : MapperRegs
  /-- 8192 bytes, in use when the cartridge has no graphics ROM (R115). -/
  chrRam : Memory
  deriving DecidableEq, Repr

/-- The reset state of variant (b) (R122). -/
def SerialRegs.reset : SerialRegs :=
  { shift := 0, count := 0, control := 0x0C#5, chr0 := 0, chr1 := 0, prgSel := 0 }

/-- The variant of a mapper id, in its reset state (R115, R122, R123, R124). Other ids are
unsupported (R125). -/
def MapperRegs.ofId : Nat → Option MapperRegs
  | 0 => some .fixed
  | 1 => some (.serial SerialRegs.reset)
  | 2 => some (.prgSwitch 0)
  | 3 => some (.chrSwitch 0)
  | _ => none

/-- `MirrorOf` of the control register's bits 1:0 (R119). -/
def mirrorOf (n : BitVec 2) : Mirroring :=
  match n.toNat with
  | 0 => .singleLow
  | 1 => .singleHigh
  | 2 => .vertical
  | _ => .horizontal

/-- The byte of program ROM that a linear map of the ROM window answers (R116). -/
def prgIndexLinear (c : Cartridge) (addr : Word) : Nat :=
  (addr.toNat - 0x8000) % (c.prgBanks * 16384)

/-- The 16 KB program bank that variant (b) answers with: half `hi` of the window (R120). -/
def serialPrgBank (c : Cartridge) (r : SerialRegs) (hi : Bool) : Nat :=
  let b := (field r.prgSel 0 4).toNat
  match (field r.control 2 2).toNat with
  | 2 => if hi then b % c.prgBanks else 0
  | 3 => if hi then c.prgBanks - 1 else b % c.prgBanks
  | _ => (b / 2 * 2 + bitNat hi) % c.prgBanks

/-- The program ROM byte that answers at an address of the ROM window (R116, R120, R123, R124). -/
def prgIndex (c : Cartridge) (m : MapperRegs) (addr : Word) : Nat :=
  let off := (field addr 0 14).toNat
  let hi := bitOf addr 14
  match m with
  | .fixed | .chrSwitch _ => prgIndexLinear c addr
  | .serial r => serialPrgBank c r hi * 16384 + off
  | .prgSwitch bank => (if hi then c.prgBanks - 1 else bank) * 16384 + off

/-- `Mapper.ReadPrg` (R110). -/
def readPrg (c : Cartridge) (m : MapperRegs) (addr : Word) : Byte :=
  Memory.read c.prg (prgIndex c m addr)

/-- The commit of the fifth serial write (R118): the registers with the value in the register that
address bits 14:13 choose, and the new mirroring if that is the control register. -/
def serialCommit (r : SerialRegs) (addr : Word) (value : BitVec 5) : SerialRegs × Option Mirroring :=
  let r := { r with shift := 0, count := 0 }
  match (field addr 13 2).toNat with
  | 0 => ({ r with control := value }, some (mirrorOf (field value 0 2)))
  | 1 => ({ r with chr0 := value }, none)
  | 2 => ({ r with chr1 := value }, none)
  | _ => ({ r with prgSel := value }, none)

/-- `WritePrg` of variant (b) (R118). -/
def serialWrite (r : SerialRegs) (addr : Word) (v : Byte) : SerialRegs × Option Mirroring :=
  if bitOf v 7 then
    ({ r with shift := 0, count := 0, control := r.control ||| 0x0C#5 }, none)
  else
    let shift := r.shift ||| (bitVec 5 (bitOf v 0) <<< r.count)
    let count := r.count + 1
    if count = 5 then serialCommit r addr shift
    else ({ r with shift := shift, count := count }, none)

/-- `Mapper.WritePrg` (R104, R116, R118, R123, R124): the new registers, and the new mirroring mode
if the write sets it. -/
def writePrg (c : Cartridge) (m : MapperRegs) (addr : Word) (v : Byte) :
    MapperRegs × Option Mirroring :=
  match m with
  | .fixed => (.fixed, none)
  | .serial r => let w := serialWrite r addr v; (.serial w.1, w.2)
  | .prgSwitch _ => (.prgSwitch (v.toNat % c.prgBanks), none)
  | .chrSwitch _ => (.chrSwitch (if c.chrBanks = 0 then 0 else v.toNat % c.chrBanks), none)

/-- The 4 KB graphics bank that variant (b) answers with: half `hi` of the window (R121). -/
def serialChrBank (c : Cartridge) (r : SerialRegs) (hi : Bool) : Nat :=
  let m := if c.chrBanks = 0 then 2 else 2 * c.chrBanks
  if bitOf r.control 4 then (if hi then r.chr1.toNat % m else r.chr0.toNat % m)
  else (r.chr0.toNat / 2 * 2 + bitNat hi) % m

/-- The graphics byte that answers at an address of the pattern window (R116, R121, R124). -/
def chrIndex (c : Cartridge) (m : MapperRegs) (addr : BitVec 13) : Nat :=
  match m with
  | .fixed | .prgSwitch _ => addr.toNat
  | .serial r => serialChrBank c r (bitOf addr 12) * 4096 + (field addr 0 12).toNat
  | .chrSwitch bank => if c.chrBanks = 0 then addr.toNat else bank * 8192 + addr.toNat

/-- `Mapper.ReadChr` (R112, R115): graphics ROM, or character RAM if there is none. -/
def readChr (c : Cartridge) (m : MapperState) (addr : BitVec 13) : Byte :=
  Memory.read (if c.chrBanks = 0 then m.chrRam else c.chr) (chrIndex c m.regs addr)

/-- `Mapper.WriteChr` (R112, R115, R121): only character RAM takes a write. -/
def writeChr (c : Cartridge) (m : MapperState) (addr : BitVec 13) (v : Byte) : MapperState :=
  if c.chrBanks = 0 then { m with chrRam := Memory.write m.chrRam (chrIndex c m.regs addr) v } else m

/-- The scanline notification with its vertical-blank flag (R126): it changes no variant's state. -/
def scanlineNotify (_vblank : Bool) (m : MapperState) : MapperState :=
  match m.regs with
  | .fixed | .serial _ | .prgSwitch _ | .chrSwitch _ => m

/-- R115: every bank number lies within the cartridge, and the serial write count below 5 (R117). -/
def MapperRegs.inBounds (c : Cartridge) : MapperRegs → Bool
  | .fixed => true
  | .serial r => decide (r.count < 5)
  | .prgSwitch bank => decide (bank < c.prgBanks)
  | .chrSwitch bank => decide (bank = 0 ∨ bank < c.chrBanks)

end Sys2Proof.Machine
end

