-- ==== Sys2Proof/Machine/VideoState.lean ====
section
/-! DEFINITION. The Video Engine's state (61_video_engine.md R450, R475). -/

namespace Sys2Proof.Machine

/-- The four stages of a frame (R451). -/
inductive Stage where
  | preRender | render | postRender | verticalBlank
  deriving DecidableEq, Repr

/-- VideoState (R450). -/
structure Video where
  stage : Stage
  scanline : Nat
  dot : Nat
  /-- The current VRAM address (R457). -/
  v : BitVec 15
  /-- The temporary VRAM address (R457). -/
  t : BitVec 15
  fineX : BitVec 3
  /-- The write toggle (R458). -/
  w : Bool
  /-- Sprite memory, 256 bytes (R466). -/
  oam : Memory
  oamAddr : Byte
  /-- The selected sprites, at most 8 indices (R467). -/
  lineSprites : List Nat
  ctrl : Byte
  mask : Byte
  vblank : Bool
  sprite0Hit : Bool
  readBuffer : Byte
  oddFrame : Bool
  deriving DecidableEq, Repr

/-- The stage of a scanline, by the table of R451. -/
def stageOf (scanline : Nat) : Stage :=
  if scanline < 240 then .render
  else if scanline = 240 then .postRender
  else if scanline ≤ 260 then .verticalBlank
  else .preRender

/-- The Video Engine after reset (R475), its sprite memory given. -/
def Video.reset (oam : Memory) : Video :=
  { stage := .preRender, scanline := 261, dot := 0, v := 0, t := 0, fineX := 0, w := false, oam := oam,
    oamAddr := 0, lineSprites := [], ctrl := 0, mask := 0, vblank := false, sprite0Hit := false,
    readBuffer := 0, oddFrame := false }

end Sys2Proof.Machine
end

