-- ==== Sys2Proof/Machine/State.lean ====
section
/-! DEFINITION. The machine state (63_scheduler_and_host.md R560): the product of the processor, the
bus memories and controllers, the mapper, the Video and Audio Engines and the scheduler's dividers,
with the session's parameters; the reset state; why a step can stop. -/

namespace Sys2Proof.Machine

/-- What the Bus owns (R100, R128). -/
structure BusState where
  /-- Work RAM, 2048 bytes (R105). -/
  ram : Memory
  /-- Nametable RAM, two banks of 1024 bytes (R113). -/
  vram : Memory
  /-- Palette RAM, 32 bytes (R114). -/
  palette : Memory
  /-- Save RAM, 8192 bytes (R109). -/
  prgRam : Memory
  /-- The active mirroring mode (R113). -/
  mirroring : Mirroring
  strobe : Bool
  pad0 : Byte
  pad1 : Byte
  deriving DecidableEq, Repr

/-- The scheduler's divider counters (R561). -/
structure Sched where
  divProcessor : Nat
  divVideo : Nat
  divAudio : Nat
  deriving DecidableEq, Repr

/-- One write to the pixel sink (R566). -/
structure Pixel where
  x : Nat
  y : Nat
  rgba : BitVec 32
  deriving DecidableEq, Repr

/-- What the last tick gave the host (R566, R567). The model's own field: log entry 17. -/
structure Output where
  pixel : Option Pixel
  redraw : Bool
  sample : Option (BitVec 16)
  deriving DecidableEq, Repr

/-- Nothing for the host. -/
def Output.none : Output := { pixel := Option.none, redraw := false, sample := Option.none }

/-- The state of the whole machine. -/
structure State where
  cpu : Cpu
  bus : BusState
  mapper : MapperState
  video : Video
  audio : Audio
  sched : Sched
  /-- The cartridge, never changed (R102). -/
  cart : Cartridge
  /-- The session's named parameters, never changed (R8). -/
  params : Params
  /-- How many free values have been drawn. The model's own field: log entry 18. -/
  draws : Nat
  out : Output
  deriving DecidableEq, Repr

/-- Why a step can stop with a fault: never. "No internal operation can fail once the session is
running" (R401), so no constructor exists. Safe: nothing stops that the spec lets go on. -/
inductive Fault
  deriving DecidableEq, Repr

/-- Why a step can be refused. -/
inductive Refusal where
  /-- Raised by an arm of `exec` whose instruction has no meaning yet. Safe: the machine stops where
  the hardware goes on. No arm raises it now. -/
  | notModelled (mnemonic : String)
  /-- Raised by the DMC reader of the audio step, never by an instruction, at the first fetch of a
  sample that would run past 0xFFFF: "a model refuses it" (R525, U13, C8). Safe: the machine stops
  where the spec gives no behaviour. Log entry 14. -/
  | dmcSamplePastEnd (addr : Word) (remaining : Nat)
  deriving DecidableEq, Repr

/-- What a step or a meaning answers. -/
abbrev Result := Host.Outcome State Fault Refusal

/-- What a session is launched with (R563, R570, R590): the cartridge, the named parameters, and the
contents of every memory, which no source gives (R131). -/
structure Launch where
  cart : Cartridge
  params : Params
  ram : Memory
  vram : Memory
  palette : Memory
  prgRam : Memory
  chrRam : Memory
  oam : Memory
  deriving DecidableEq, Repr

/-- The reset operation (R34, R590): the mapper's variant is `regs` in its reset state, every engine
and the Bus take their reset values, and PC is `Read16(0xFFFC)`. -/
def State.powerOn (l : Launch) (regs : MapperRegs) : State :=
  { cpu := Cpu.reset (mkWord (readPrg l.cart regs 0xFFFD#16) (readPrg l.cart regs 0xFFFC#16))
      l.params.resetPending,
    bus :=
      { ram := l.ram, vram := l.vram, palette := l.palette, prgRam := l.prgRam,
        mirroring := l.cart.mirroring, strobe := false, pad0 := 0x00#8, pad1 := 0x00#8 },
    mapper := { regs := regs, chrRam := l.chrRam },
    video := Video.reset l.oam,
    audio := Audio.reset,
    sched := { divProcessor := 0, divVideo := 0, divAudio := 0 },
    cart := l.cart,
    params := l.params,
    draws := 0,
    out := Output.none }

/-- The launch of State.reset: the blank cartridge, the recommended parameters, nothing in memory.
Log entries 1, 3 and 13. -/
def Launch.blank : Launch :=
  { cart := Cartridge.blank, params := Params.recommended, ram := [], vram := [], palette := [],
    prgRam := [], chrRam := [], oam := [] }

/-- The machine right after reset (R590). -/
def State.reset : State := State.powerOn Launch.blank .fixed

end Sys2Proof.Machine
end

