-- ==== Sys2Proof/Machine/Update.lean ====
section
/-! DEFINITION. The named updates of State: one for each component and for each processor register. -/

namespace Sys2Proof.Machine

/-- The state with the processor's registers replaced. -/
def State.setCpu (s : State) (new : Cpu) : State := { s with cpu := new }

/-- The state with the Bus replaced. -/
def State.setBus (s : State) (new : BusState) : State := { s with bus := new }

/-- The state with the Mapper replaced. -/
def State.setMapper (s : State) (new : MapperState) : State := { s with mapper := new }

/-- The state with the Video Engine replaced. -/
def State.setVideo (s : State) (new : Video) : State := { s with video := new }

/-- The state with the Audio Engine replaced. -/
def State.setAudio (s : State) (new : Audio) : State := { s with audio := new }

/-- The state with the scheduler's dividers replaced. -/
def State.setSched (s : State) (new : Sched) : State := { s with sched := new }

/-- The state with the draw counter replaced. -/
def State.setDraws (s : State) (new : Nat) : State := { s with draws := new }

/-- The state with the output of this tick replaced. -/
def State.setOut (s : State) (new : Output) : State := { s with out := new }

/-- The state with A replaced. -/
def State.setA (s : State) (new : Byte) : State := { s with cpu := { s.cpu with a := new } }

/-- The state with X replaced. -/
def State.setX (s : State) (new : Byte) : State := { s with cpu := { s.cpu with x := new } }

/-- The state with Y replaced. -/
def State.setY (s : State) (new : Byte) : State := { s with cpu := { s.cpu with y := new } }

/-- The state with SP replaced. -/
def State.setSp (s : State) (new : Byte) : State := { s with cpu := { s.cpu with sp := new } }

/-- The state with PC replaced. -/
def State.setPc (s : State) (new : Word) : State := { s with cpu := { s.cpu with pc := new } }

/-- The state with the flags replaced. -/
def State.setP (s : State) (new : Flags) : State := { s with cpu := { s.cpu with p := new } }

/-- The state with the pending-cycle counter replaced. -/
def State.setPending (s : State) (new : Nat) : State := { s with cpu := { s.cpu with pending := new } }

/-- The state with the asserted sources replaced. -/
def State.setIrq (s : State) (new : IrqLines) : State := { s with cpu := { s.cpu with irq := new } }

/-- The state with the NMI latch replaced. -/
def State.setNmi (s : State) (new : Bool) : State := { s with cpu := { s.cpu with nmi := new } }

end Sys2Proof.Machine
end

