-- ==== Sys2Proof/Machine/VideoPort.lean ====
section
/-! DEFINITION. The video address space (21_bus_and_mapper.md R111 to R114) and the Video Engine's
eight registers (61_video_engine.md R452 to R462). -/

namespace Sys2Proof.Machine

/-- The answer of a read: its byte and the state after it (R65: a read can change a device). -/
structure ReadResult where
  value : Byte
  state : State
  deriving DecidableEq, Repr

/-- The nametable RAM cell of a video address 0x2000 to 0x3EFF (R113). -/
def nametableIndex (m : Mirroring) (a : BitVec 14) : Nat :=
  let bank :=
    match m with
    | .horizontal => bitNat (bitOf a 11)
    | .vertical => bitNat (bitOf a 10)
    | .singleLow => 0
    | .singleHigh => 1
  bank * 1024 + (field a 0 10).toNat

/-- The palette RAM cell of a video address 0x3F00 to 0x3FFF, with the one alias (R114, C10). -/
def paletteIndex (a : BitVec 14) : Nat :=
  let i := (field a 0 5).toNat
  if i = 0x10 then 0x00 else i

/-- `VideoRead` (R111). -/
def videoRead (s : State) (a : BitVec 14) : Byte :=
  if a.toNat < 0x2000 then readChr s.cart s.mapper (field a 0 13)
  else if a.toNat < 0x3F00 then Memory.read s.bus.vram (nametableIndex s.bus.mirroring a)
  else Memory.read s.bus.palette (paletteIndex a)

/-- `VideoWrite` (R111). -/
def videoWrite (s : State) (a : BitVec 14) (value : Byte) : State :=
  if a.toNat < 0x2000 then s.setMapper (writeChr s.cart s.mapper (field a 0 13) value)
  else if a.toNat < 0x3F00 then
    s.setBus { s.bus with vram := Memory.write s.bus.vram (nametableIndex s.bus.mirroring a) value }
  else s.setBus { s.bus with palette := Memory.write s.bus.palette (paletteIndex a) value }

/-- What the data register adds to the current VRAM address after each access (R452 bit 2, R461). -/
def vramIncrement (ctrl : Byte) : BitVec 15 := if bitOf ctrl 2 then 32 else 1

/-- Register 2, status: a read (R455). -/
def readStatus (s : State) : ReadResult :=
  { value := bitVec 8 s.video.vblank <<< 7 ||| bitVec 8 s.video.sprite0Hit <<< 6,
    state := s.setVideo { s.video with vblank := false, w := false } }

/-- Register 7, VRAM data: a read (R462). -/
def readVramData (s : State) : ReadResult :=
  let a : BitVec 14 := field s.video.v 0 14
  let data := videoRead s a
  let v := s.video.v + vramIncrement s.video.ctrl
  if a.toNat < 0x3F00 then
    { value := s.video.readBuffer, state := s.setVideo { s.video with v := v, readBuffer := data } }
  else { value := data, state := s.setVideo { s.video with v := v } }

/-- A read of video register `reg`, 0 to 7 (R106, R452 to R462). -/
def readVideoRegister (s : State) (reg : BitVec 3) : ReadResult :=
  match reg.toNat with
  | 0 => { value := s.video.ctrl, state := s }
  | 2 => readStatus s
  | 4 => { value := Memory.read s.video.oam s.video.oamAddr.toNat, state := s }
  | 7 => readVramData s
  | _ => { value := Config.unmappedReadByte, state := s }

/-- Register 0, control: a write (R452). -/
def writeControl (d : Video) (value : Byte) : Video :=
  { d with ctrl := value, t := setField d.t 10 (field value 0 2) }

/-- Register 4, OAM data: a write (R456). -/
def writeOamData (d : Video) (value : Byte) : Video :=
  { d with oam := Memory.write d.oam d.oamAddr.toNat value, oamAddr := d.oamAddr + 1 }

/-- Register 5, scroll: a write (R459). -/
def writeScroll (d : Video) (value : Byte) : Video :=
  if d.w then
    { d with
      t := setField (setField d.t 5 (field value 3 5)) 12 (field value 0 3)
      w := false }
  else { d with t := setField d.t 0 (field value 3 5), fineX := field value 0 3, w := true }

/-- Register 6, VRAM address: a write (R460). -/
def writeVramAddress (d : Video) (value : Byte) : Video :=
  if d.w then
    let t := setField d.t 0 value
    { d with t := t, v := t, w := false }
  else { d with t := setField (setField d.t 8 (field value 0 6)) 14 (0 : BitVec 1), w := true }

/-- Register 7, VRAM data: a write (R461). -/
def writeVramData (s : State) (value : Byte) : State :=
  let s' := videoWrite s (field s.video.v 0 14) value
  s'.setVideo { s'.video with v := s'.video.v + vramIncrement s'.video.ctrl }

/-- A write of video register `reg`, 0 to 7 (R106, R452 to R461). Register 2 ignores it. -/
def writeVideoRegister (s : State) (reg : BitVec 3) (value : Byte) : State :=
  match reg.toNat with
  | 0 => s.setVideo (writeControl s.video value)
  | 1 => s.setVideo { s.video with mask := value }
  | 3 => s.setVideo { s.video with oamAddr := value }
  | 4 => s.setVideo (writeOamData s.video value)
  | 5 => s.setVideo (writeScroll s.video value)
  | 6 => s.setVideo (writeVramAddress s.video value)
  | 7 => writeVramData s value
  | _ => s

end Sys2Proof.Machine
end

