-- ==== Sys2Proof/Machine/AudioPort.lean ====
section
/-! DEFINITION. The Audio Engine's units that a register access can clock (62_audio_engine.md R503 to
R509, R514) and its registers (R505, R510, R516, R519, R523, R539, R540). -/

namespace Sys2Proof.Machine

/-- `pullInterruptPin(FRAME)` or its release (R406). -/
def setFrameIrq (s : State) (b : Bool) : State := s.setIrq { s.cpu.irq with frame := b }

/-- `pullInterruptPin(DMC)` or its release (R406). -/
def setDmcIrq (s : State) (b : Bool) : State := s.setIrq { s.cpu.irq with dmc := b }

/-- The length table (R508). -/
def lengthTable : List Nat :=
  [10, 254, 20, 2, 40, 4, 80, 6, 160, 8, 60, 10, 14, 12, 26, 14,
   12, 16, 24, 18, 48, 20, 96, 22, 192, 24, 72, 26, 16, 28, 32, 30]

/-- The length of a 5-bit load index (R508). -/
def lengthOf (i : BitVec 5) : Nat := lengthTable.getD i.toNat 0

/-- A length loaded by a register write: only while the channel is enabled (R507). -/
def loadLength (enabled : Bool) (old : Nat) (value : Byte) : Nat :=
  if enabled then lengthOf (field value 3 5) else old

/-- An envelope's quarter clock (R506); `loop` is the channel's halt bit. -/
def Envelope.clock (e : Envelope) (loop : Bool) : Envelope :=
  if e.start then { e with start := false, level := 15, div := e.vol }
  else if e.div = 0 then
    { e with
      div := e.vol
      level := if 0 < e.level.toNat then e.level - 1 else if loop then 15 else e.level }
  else { e with div := e.div - 1 }

/-- `EnvOut` (R506). -/
def Envelope.output (e : Envelope) : Nat := (if e.constVol then e.vol else e.level).toNat

/-- A length counter's half clock (R507). -/
def clockLength (halt : Bool) (n : Nat) : Nat := if !halt && decide (0 < n) then n - 1 else n

/-- The swept period of a pulse (R509); pulse 1 subtracts one more. -/
def Pulse.target (p : Pulse) (first : Bool) : Int :=
  let change := (p.period >>> p.swShift.toNat).toNat
  if p.swNeg then (p.period.toNat : Int) - change - (bitNat first : Int)
  else (p.period.toNat : Int) + change

/-- Whether the sweep mutes a pulse (R509). -/
def Pulse.muted (p : Pulse) (first : Bool) : Bool :=
  decide (p.period.toNat < 8) || decide (p.target first > 0x7FF)

/-- The sweep's half clock (R509). -/
def Pulse.clockSweep (p : Pulse) (first : Bool) : Pulse :=
  let fire := decide (p.swDiv = 0) && p.swEn && decide (p.swShift ≠ 0) && !p.muted first
  let period := if fire then BitVec.ofInt 11 (max (p.target first) 0) else p.period
  if p.swDiv = 0 ∨ p.swReload = true then
    { p with period := period, swDiv := p.swPeriod, swReload := false }
  else { p with period := period, swDiv := p.swDiv - 1 }

/-- The linear counter's quarter clock (R514). -/
def Triangle.clockLinear (t : Triangle) : Triangle :=
  { t with
    lin := if t.linReload then t.linReloadVal else if 0 < t.lin.toNat then t.lin - 1 else t.lin
    linReload := if t.control then t.linReload else false }

/-- The quarter-frame clock (R503): the three envelopes and the linear counter. -/
def quarterClock (a : Audio) : Audio :=
  { a with
    pulse1 := { a.pulse1 with env := a.pulse1.env.clock a.pulse1.halt }
    pulse2 := { a.pulse2 with env := a.pulse2.env.clock a.pulse2.halt }
    noise := { a.noise with env := a.noise.env.clock a.noise.halt }
    triangle := a.triangle.clockLinear }

/-- A pulse's half clock: its length counter and its sweep (R507, R509). -/
def Pulse.halfClock (p : Pulse) (first : Bool) : Pulse :=
  let q := p.clockSweep first
  { q with length := clockLength p.halt p.length }

/-- The half-frame clock (R503): the four length counters and the two sweeps. -/
def halfClock (a : Audio) : Audio :=
  { a with
    pulse1 := a.pulse1.halfClock true
    pulse2 := a.pulse2.halfClock false
    triangle := { a.triangle with length := clockLength a.triangle.control a.triangle.length }
    noise := { a.noise with length := clockLength a.noise.halt a.noise.length } }

/-- An envelope's volume fields from a register write (R510, R519). -/
def Envelope.configure (e : Envelope) (value : Byte) : Envelope :=
  { e with constVol := bitOf value 4, vol := field value 0 4 }

/-- A write of pulse register `off`, 0 to 3 (R510). -/
def Pulse.writeReg (p : Pulse) (off : BitVec 2) (value : Byte) : Pulse :=
  match off.toNat with
  | 0 => { p with duty := field value 6 2, halt := bitOf value 5, env := p.env.configure value }
  | 1 =>
    { p with
      swEn := bitOf value 7, swPeriod := field value 4 3, swNeg := bitOf value 3
      swShift := field value 0 3, swReload := true }
  | 2 => { p with period := setField p.period 0 value }
  | _ =>
    { p with
      period := setField p.period 8 (field value 0 3)
      length := loadLength p.enabled p.length value
      seq := 0
      env := { p.env with start := true } }

/-- A write of triangle register `off`, 0 to 3 (R516). -/
def Triangle.writeReg (t : Triangle) (off : BitVec 2) (value : Byte) : Triangle :=
  match off.toNat with
  | 0 => { t with control := bitOf value 7, linReloadVal := field value 0 7 }
  | 1 => t
  | 2 => { t with period := setField t.period 0 value }
  | _ =>
    { t with
      period := setField t.period 8 (field value 0 3)
      length := loadLength t.enabled t.length value
      linReload := true }

/-- A write of noise register `off`, 0 to 3 (R519). -/
def Noise.writeReg (n : Noise) (off : BitVec 2) (value : Byte) : Noise :=
  match off.toNat with
  | 0 => { n with halt := bitOf value 5, env := n.env.configure value }
  | 1 => n
  | 2 => { n with mode := bitOf value 7, periodIdx := field value 0 4 }
  | _ => { n with length := loadLength n.enabled n.length value, env := { n.env with start := true } }

/-- A write of DMC register `off`, 0 to 3 (R523). -/
def Dmc.writeReg (d : Dmc) (off : BitVec 2) (value : Byte) : Dmc :=
  match off.toNat with
  | 0 =>
    { d with
      irqEn := bitOf value 7, loop := bitOf value 6, rateIdx := field value 0 4
      irqFlag := bitOf value 7 && d.irqFlag }
  | 1 => { d with level := field value 0 7 }
  | 2 => { d with startAddr := 0xC000#16 + (value.setWidth 16 <<< 6) }
  | _ => { d with startLen := (value.setWidth 12 <<< 4) + 1 }

/-- The DMC restart (R524). -/
def Dmc.restart (d : Dmc) : Dmc := { d with curAddr := d.startAddr, remaining := d.startLen.toNat }

/-- A write of 0x4000 to 0x4013 (R107): four registers a channel. -/
def writeChannel (s : State) (reg : BitVec 5) (value : Byte) : State :=
  let a := s.audio
  let off : BitVec 2 := field reg 0 2
  match reg.toNat / 4 with
  | 0 => s.setAudio { a with pulse1 := a.pulse1.writeReg off value }
  | 1 => s.setAudio { a with pulse2 := a.pulse2.writeReg off value }
  | 2 => s.setAudio { a with triangle := a.triangle.writeReg off value }
  | 3 => s.setAudio { a with noise := a.noise.writeReg off value }
  | _ =>
    let s' := s.setAudio { a with dmc := a.dmc.writeReg off value }
    if off = 0 ∧ bitOf value 7 = false then setDmcIrq s' false else s'

/-- Channel enable, a write of 0x4015 (R539). -/
def writeChannelEnable (s : State) (value : Byte) : State :=
  let a := s.audio
  let kept (b : Nat) (n : Nat) : Nat := if bitOf value b then n else 0
  let dmc : Dmc :=
    if bitOf value 4 = false then { a.dmc with remaining := 0 }
    else if a.dmc.remaining = 0 then a.dmc.restart
    else a.dmc
  setDmcIrq
    (s.setAudio
      { a with
        pulse1 := { a.pulse1 with enabled := bitOf value 0, length := kept 0 a.pulse1.length }
        pulse2 := { a.pulse2 with enabled := bitOf value 1, length := kept 1 a.pulse2.length }
        triangle := { a.triangle with enabled := bitOf value 2, length := kept 2 a.triangle.length }
        noise := { a.noise with enabled := bitOf value 3, length := kept 3 a.noise.length }
        dmc := { dmc with irqFlag := false } })
    false

/-- Status, a read of 0x4015 (R540). -/
def readAudioStatus (s : State) : ReadResult :=
  let a := s.audio
  let on (n : Nat) : BitVec 8 := bitVec 8 (decide (0 < n))
  { value :=
      bitVec 8 a.dmc.irqFlag <<< 7 ||| bitVec 8 a.frame.irqFlag <<< 6 ||| on a.dmc.remaining <<< 4 |||
        on a.noise.length <<< 3 ||| on a.triangle.length <<< 2 ||| on a.pulse2.length <<< 1 |||
        on a.pulse1.length
    state :=
      setDmcIrq
        (setFrameIrq
          (s.setAudio
            { a with frame := { a.frame with irqFlag := false }, dmc := { a.dmc with irqFlag := false } })
          false)
        false }

/-- Frame counter control, a write of 0x4017 (R505). -/
def writeFrameControl (s : State) (value : Byte) : State :=
  let a := s.audio
  let inhibit := bitOf value 6
  let a' : Audio :=
    { a with
      frame :=
        { cycle := 0, mode5 := bitOf value 7, irqInhibit := inhibit
          irqFlag := !inhibit && a.frame.irqFlag } }
  let a'' := if bitOf value 7 then halfClock (quarterClock a') else a'
  let s' := s.setAudio a''
  if inhibit then setFrameIrq s' false else s'

end Sys2Proof.Machine
end

