-- ==== Sys2Proof/Machine/InputPort.lean ====
section
/-! DEFINITION. The controller ports (21_bus_and_mapper.md R128 to R130). A button byte is a free
input at every use (R128, log entry 8): the draw counter tells the uses apart. -/

namespace Sys2Proof.Machine

/-- The strobe write, 0x4016 (R129): both controllers are captured at the strobe's low edge. -/
def writeStrobe (s : State) (value : Byte) : State :=
  let b := bitOf value 0
  if s.bus.strobe && !b then
    (s.setBus
        { s.bus with
          strobe := b
          pad0 := Config.buttons 0 s.draws
          pad1 := Config.buttons 1 s.draws }).setDraws
      (s.draws + 1)
  else s.setBus { s.bus with strobe := b }

/-- A controller shift register after a read has shifted a bit out (R130). -/
def shiftPad (pad : Byte) : Byte := (pad >>> 1) ||| (bitVec 8 Config.controllerExhaustedBit <<< 7)

/-- The byte a controller read returns for the bit (R130): bit 6 is forced set. -/
def padByte (b : Bool) : Byte := 0x40#8 ||| bitVec 8 b

/-- A read of controller 0, at 0x4016 (R130). -/
def readPad0 (s : State) : ReadResult :=
  if s.bus.strobe then
    { value := padByte (bitOf (Config.buttons 0 s.draws) 0), state := s.setDraws (s.draws + 1) }
  else
    { value := padByte (bitOf s.bus.pad0 0)
      state := s.setBus { s.bus with pad0 := shiftPad s.bus.pad0 } }

/-- A read of controller 1, at 0x4017 (R130). -/
def readPad1 (s : State) : ReadResult :=
  if s.bus.strobe then
    { value := padByte (bitOf (Config.buttons 1 s.draws) 0), state := s.setDraws (s.draws + 1) }
  else
    { value := padByte (bitOf s.bus.pad1 0)
      state := s.setBus { s.bus with pad1 := shiftPad s.bus.pad1 } }

end Sys2Proof.Machine
end

