-- ==== Sys2Proof/Machine/Ops.lean ====
section
/-! DEFINITION. The named operations every instruction is written over: the processor bus
(21_bus_and_mapper.md R103 to R110), sprite DMA (R127), the stack (10_state.md R23), fetching
(20_memory.md R66), the interrupt sequence and the return from it (60_exceptions.md R404, R409), the
pending-cycle counter (R400, R411). -/

namespace Sys2Proof.Machine

/-- `skipCycles(n)` (R411). -/
def skipCycles (s : State) (n : Nat) : State := s.setPending (s.cpu.pending + n)

/-- The cost of an execution step (R400): "pending <- pending + cost - 1". -/
def charge (s : State) (cost : Nat) : State := s.setPending (s.cpu.pending + (cost - 1))

/-- The windows of the processor space (R103). -/
inductive Window where
  /-- 0x0000 to 0x1FFF, the RAM cell. -/
  | ram (cell : BitVec 11)
  /-- 0x2000 to 0x3FFF, the video register. -/
  | video (reg : BitVec 3)
  /-- 0x4000 to 0x4013, the audio channel register. -/
  | channel (reg : BitVec 5)
  /-- 0x4014. -/
  | spriteDma
  /-- 0x4015. -/
  | audioStatus
  /-- 0x4016. -/
  | pad0
  /-- 0x4017. -/
  | pad1
  /-- 0x4018 to 0x5FFF. -/
  | gap
  /-- 0x6000 to 0x7FFF, the save-RAM cell. -/
  | saveRam (cell : BitVec 13)
  /-- 0x8000 to 0xFFFF. -/
  | rom
  deriving DecidableEq, Repr

/-- Which window an address falls in (R103, R107). -/
def windowOf (addr : Word) : Window :=
  let n := addr.toNat
  if n < 0x2000 then .ram (field addr 0 11)
  else if n < 0x4000 then .video (field addr 0 3)
  else if n < 0x4014 then .channel (field addr 0 5)
  else if n = 0x4014 then .spriteDma
  else if n = 0x4015 then .audioStatus
  else if n = 0x4016 then .pad0
  else if n = 0x4017 then .pad1
  else if n < 0x6000 then .gap
  else if n < 0x8000 then .saveRam (field addr 0 13)
  else .rom

/-- A read of the save-RAM window (R109). -/
def readSaveRam (s : State) (cell : BitVec 13) : ReadResult :=
  if s.cart.battery = false then { value := Config.unmappedReadByte, state := s }
  else if s.params.prgRamEnabled = false then
    { value := Config.openBusByte s.draws, state := s.setDraws (s.draws + 1) }
  else { value := Memory.read s.bus.prgRam cell.toNat, state := s }

/-- A write of the save-RAM window (R109). -/
def writeSaveRam (s : State) (cell : BitVec 13) (value : Byte) : State :=
  if s.cart.battery && s.params.prgRamEnabled && !s.params.prgRamWriteProtected then
    s.setBus { s.bus with prgRam := Memory.write s.bus.prgRam cell.toNat value }
  else s

/-- `MemRead(addr, 1)` (R103): total, with the device's side effects (R65). -/
def busRead (s : State) (addr : Word) : ReadResult :=
  match windowOf addr with
  | .ram cell => { value := Memory.read s.bus.ram cell.toNat, state := s }
  | .video reg => readVideoRegister s reg
  | .channel _ | .spriteDma | .gap => { value := Config.unmappedReadByte, state := s }
  | .audioStatus => readAudioStatus s
  | .pad0 => readPad0 s
  | .pad1 => readPad1 s
  | .saveRam cell => readSaveRam s cell
  | .rom => { value := readPrg s.cart s.mapper.regs addr, state := s }

/-- The copy of a sprite DMA from its `n`-th last byte on (R127): byte `256 - n` of page `page` goes
to OAM at that distance from the OAM address, wrapping. -/
def spriteCopy (page : Byte) : Nat → State → State
  | 0, s => s
  | n + 1, s =>
    let i := BitVec.ofNat 8 (255 - n)
    let r := busRead s (mkWord page i)
    let d := r.state.video
    spriteCopy page n
      (r.state.setVideo { d with oam := Memory.write d.oam (d.oamAddr + i).toNat r.value })

/-- Sprite DMA, a write of 0x4014 (R127). -/
def spriteDma (s : State) (page : Byte) : State :=
  let s' := spriteCopy page 256 s
  skipCycles s' s'.params.oamDmaStall

/-- A write of the ROM window: a mapper register write (R104, R110). -/
def writeMapper (s : State) (addr : Word) (value : Byte) : State :=
  let w := writePrg s.cart s.mapper.regs addr value
  let s' := s.setMapper { s.mapper with regs := w.1 }
  match w.2 with
  | some m => s'.setBus { s'.bus with mirroring := m }
  | none => s'

/-- `MemWrite(addr, 1, v)` (R104): total, with the device's effects. -/
def busWrite (s : State) (addr : Word) (value : Byte) : State :=
  match windowOf addr with
  | .ram cell => s.setBus { s.bus with ram := Memory.write s.bus.ram cell.toNat value }
  | .video reg => writeVideoRegister s reg value
  | .channel reg => writeChannel s reg value
  | .spriteDma => spriteDma s value
  | .audioStatus => writeChannelEnable s value
  | .pad0 => writeStrobe s value
  | .pad1 => writeFrameControl s value
  | .gap => s
  | .saveRam cell => writeSaveRam s cell value
  | .rom => writeMapper s addr value

/-- The answer of a 16-bit read. -/
structure ReadWord where
  value : Word
  state : State
  deriving DecidableEq, Repr

/-- Two reads, low byte first, as one word (R62). -/
def readPair (s : State) (lo hi : Word) : ReadWord :=
  let l := busRead s lo
  let h := busRead l.state hi
  { value := mkWord h.value l.value, state := h.state }

/-- `Read16(addr)` (R62). -/
def read16 (s : State) (addr : Word) : ReadWord := readPair s addr (addr + 1)

/-- `Fetch8()` (R66). -/
def fetch8 (s : State) : ReadResult :=
  let r := busRead s s.cpu.pc
  { value := r.value, state := r.state.setPc (r.state.cpu.pc + 1) }

/-- `Fetch16()` (R66). -/
def fetch16 (s : State) : ReadWord :=
  let l := fetch8 s
  let h := fetch8 l.state
  { value := mkWord h.value l.value, state := h.state }

/-- An instruction fetched, and the state after its bytes were fetched. -/
structure Fetched where
  instr : Instr
  state : State
  deriving DecidableEq, Repr

/-- Fetching an instruction (R66, R177): the opcode byte, then the operand bytes its format calls for. -/
def fetchInstr (s : State) : Fetched :=
  let o := fetch8 s
  match formOf o.value with
  | .f1 i => { instr := i, state := o.state }
  | .f2 mk => let b := fetch8 o.state; { instr := mk b.value, state := b.state }
  | .f3 mk => let w := fetch16 o.state; { instr := mk w.value, state := w.state }

/-- `Push(v)` (R23). -/
def push (s : State) (value : Byte) : State :=
  let s' := busWrite s (stackAddr s.cpu.sp) value
  s'.setSp (s'.cpu.sp - 1)

/-- `Pull()` (R23). -/
def pull (s : State) : ReadResult :=
  let s' := s.setSp (s.cpu.sp + 1)
  busRead s' (stackAddr s'.cpu.sp)

/-- The high byte of a word pushed, then its low byte (R317, R404). -/
def pushWord (s : State) (w : Word) : State := push (push s (hiByte w)) (loByte w)

/-- A word pulled, low byte first (R318, R341). -/
def pullWord (s : State) : ReadWord :=
  let l := pull s
  let h := pull l.state
  { value := mkWord h.value l.value, state := h.state }

/-- The three interrupt kinds (R402). -/
inductive InterruptKind where
  | nmi | irq | brk
  deriving DecidableEq, Repr

/-- The vector of a kind (R402, R404). -/
def InterruptKind.vector : InterruptKind → Word
  | .nmi => 0xFFFA#16
  | .irq => 0xFFFE#16
  | .brk => 0xFFFE#16

/-- Bit 4 of the flag byte a kind pushes (R402). -/
def InterruptKind.breakBit : InterruptKind → Bool
  | .nmi => false
  | .irq => false
  | .brk => true

/-- The interrupt sequence (R404): PC and the flag byte are pushed, I is set, PC comes from the
vector. -/
def takeInterrupt (k : InterruptKind) (s : State) : State :=
  let s1 := pushWord s s.cpu.pc
  let s2 := push s1 (s1.cpu.p.pushed k.breakBit)
  let s3 := s2.setP { s2.cpu.p with i := true }
  let r := read16 s3 k.vector
  r.state.setPc r.value

/-- The flag byte pulled into the six flags (R26, R239, R341). -/
def pullFlags (s : State) : State :=
  let r := pull s
  r.state.setP (Flags.pulled r.value)

/-- The return from an interrupt (R341, R409): the flags, then PC. -/
def returnFromInterrupt (s : State) : State :=
  let r := pullWord (pullFlags s)
  r.state.setPc r.value

end Sys2Proof.Machine
end

