-- ==== Sys2Proof/Machine/Audio.lean ====
section
/-! DEFINITION. The Audio Engine's step (62_audio_engine.md R501 to R526, R541, R542). -/

namespace Sys2Proof.Machine

/-- The duty table, position 0 first (R511). -/
def dutyTable : List (List Nat) :=
  [[0, 1, 0, 0, 0, 0, 0, 0], [0, 1, 1, 0, 0, 0, 0, 0], [0, 1, 1, 1, 1, 0, 0, 0],
   [1, 0, 0, 1, 1, 1, 1, 1]]

/-- A pulse's timer clock (R511). -/
def Pulse.clockTimer (p : Pulse) : Pulse :=
  if p.timer = 0 then { p with timer := p.period, seq := p.seq + 1 }
  else { p with timer := p.timer - 1 }

/-- `PulseOut` (R511). -/
def Pulse.output (p : Pulse) (first : Bool) : Nat :=
  if p.length = 0 ∨ p.muted first = true ∨ (dutyTable.getD p.duty.toNat []).getD p.seq.toNat 0 = 0 then 0
  else p.env.output

/-- The triangle's timer clock (R515). -/
def Triangle.clockTimer (t : Triangle) : Triangle :=
  if t.timer = 0 then
    { t with
      timer := t.period
      seq := if 0 < t.length ∧ 0 < t.lin.toNat then t.seq + 1 else t.seq }
  else { t with timer := t.timer - 1 }

/-- `TriOut` (R515): the staircase 15 down to 0, then 0 up to 15. -/
def Triangle.output (t : Triangle) : Nat :=
  if t.seq.toNat < 16 then 15 - t.seq.toNat else t.seq.toNat - 16

/-- The noise periods in processor cycles (R518). -/
def noiseFigures : Region → List Nat
  | .ntsc => [4, 8, 16, 32, 64, 96, 128, 160, 202, 254, 380, 508, 762, 1016, 2034, 4068]
  | .pal => [4, 8, 14, 30, 60, 88, 118, 148, 188, 236, 354, 472, 708, 944, 1890, 3778]

/-- `NoisePeriod` (R518): figure / 2 - 1. -/
def noisePeriod (r : Region) (i : BitVec 4) : Nat := (noiseFigures r).getD i.toNat 0 / 2 - 1

/-- The noise shift register moved by one (R517). -/
def shiftLfsr (mode : Bool) (l : BitVec 15) : BitVec 15 :=
  let fb := bitOf l 0 ^^ (if mode then bitOf l 6 else bitOf l 1)
  (l >>> 1) ||| (bitVec 15 fb <<< 14)

/-- The noise timer's clock (R517). -/
def Noise.clockTimer (n : Noise) (r : Region) : Noise :=
  if n.timer = 0 then { n with timer := noisePeriod r n.periodIdx, lfsr := shiftLfsr n.mode n.lfsr }
  else { n with timer := n.timer - 1 }

/-- `NoiseOut` (R517). -/
def Noise.output (n : Noise) : Nat :=
  if n.length = 0 ∨ bitOf n.lfsr 0 = true then 0 else n.env.output

/-- `DmcRate` in processor cycles (R521). -/
def dmcRates : Region → List Nat
  | .ntsc => [428, 380, 340, 320, 286, 254, 226, 214, 190, 160, 142, 128, 106, 84, 72, 54]
  | .pal => [398, 354, 316, 298, 276, 236, 210, 198, 176, 148, 132, 118, 98, 78, 66, 50]

/-- The DMC timer's reload (R521): rate / 2 - 1. -/
def dmcReload (r : Region) (i : BitVec 4) : Nat := (dmcRates r).getD i.toNat 0 / 2 - 1

/-- The DMC level after one output bit (R522). -/
def dmcLevel (up : Bool) (level : BitVec 7) : BitVec 7 :=
  if up then (if level.toNat ≤ 125 then level + 2 else level)
  else (if 2 ≤ level.toNat then level - 2 else level)

/-- The DMC output unit's clock (R522). -/
def Dmc.clockOutput (d : Dmc) : Dmc :=
  let level := if d.silence then d.level else dmcLevel (bitOf d.shifter 0) d.level
  let d := { d with level := level, shifter := d.shifter >>> 1, bitsLeft := d.bitsLeft - 1 }
  if d.bitsLeft = 0 then
    match d.buffer with
    | none => { d with bitsLeft := 8, silence := true }
    | some b => { d with bitsLeft := 8, silence := false, shifter := b, buffer := none }
  else d

/-- The DMC timer's clock (R521, R522). -/
def Dmc.clockTimer (d : Dmc) (r : Region) : Dmc :=
  if d.timer = 0 then { d.clockOutput with timer := dmcReload r d.rateIdx }
  else { d with timer := d.timer - 1 }

/-- The timers of one step (R501): the triangle's every step, the others' every second. -/
def clockTimers (a : Audio) (r : Region) : Audio :=
  let a := { a with triangle := a.triangle.clockTimer }
  if a.frame.cycle % 2 = 1 then
    { a with
      pulse1 := a.pulse1.clockTimer
      pulse2 := a.pulse2.clockTimer
      noise := a.noise.clockTimer r
      dmc := a.dmc.clockTimer r }
  else a

/-- The DMC address after a fetched byte (R525): no step takes 0xFFFF to a lower address, so it stays
(log entry 15). -/
def nextSampleAddr (a : Word) : Word := if a = 0xFFFF#16 then a else a + 1

/-- The end of a sample (R526). -/
def endOfSample (s : State) : State :=
  let d := s.audio.dmc
  if d.loop then s.setAudio { s.audio with dmc := d.restart }
  else if d.irqEn then setDmcIrq (s.setAudio { s.audio with dmc := { d with irqFlag := true } }) true
  else s

/-- One sample byte fetched (R525): the processor is stalled, the byte read over the bus, the cursor
moved. -/
def fetchSample (s : State) : State :=
  let r := busRead (skipCycles s s.params.dmcStall) s.audio.dmc.curAddr
  let d := r.state.audio.dmc
  let s' :=
    r.state.setAudio
      { r.state.audio with
        dmc :=
          { d with
            buffer := some r.value, curAddr := nextSampleAddr d.curAddr, remaining := d.remaining - 1 } }
  if s'.audio.dmc.remaining = 0 then endOfSample s' else s'

/-- The DMC reader (R525): a fetch if the buffer is empty and bytes remain. A sample that would run
past 0xFFFF is refused (log entry 14). -/
def dmcReader (s : State) : Result :=
  let d := s.audio.dmc
  if d.buffer = none ∧ 0 < d.remaining then
    if 0x10000 < d.curAddr.toNat + d.remaining then
      .refused (.dmcSamplePastEnd d.curAddr d.remaining)
    else .next (fetchSample s)
  else .next s

/-- FRAME_STEP_CYCLES (R504): the cycle of step 1 to 5. -/
def frameStepCycles : Region → List Nat
  | .ntsc => [7457, 14913, 22371, 29829, 37281]
  | .pal => [8313, 16627, 24939, 33253, 41565]

/-- What a cycle of the frame sequencer does (R504). -/
inductive FrameEvent where
  | nothing
  | quarter
  | quarterHalf
  /-- Quarter, half and interrupt, then `cycle <- 0`. -/
  | last
  deriving DecidableEq, Repr

/-- The event of a cycle, by the table of R504. -/
def frameEvent (r : Region) (mode5 : Bool) (cycle : Nat) : FrameEvent :=
  let at_ (k : Nat) : Nat := (frameStepCycles r).getD k 0
  if cycle = at_ 0 then .quarter
  else if cycle = at_ 1 then .quarterHalf
  else if cycle = at_ 2 then .quarter
  else if cycle = at_ 3 then (if mode5 then .nothing else .last)
  else if cycle = at_ 4 then (if mode5 then .last else .nothing)
  else .nothing

/-- The frame interrupt (R504). -/
def raiseFrameIrq (s : State) : State :=
  if s.audio.frame.irqInhibit then s
  else
    setFrameIrq
      (s.setAudio { s.audio with frame := { s.audio.frame with irqFlag := true } })
      true

/-- The frame sequencer's clocks and interrupt (R504). -/
def sequencerWork (e : FrameEvent) (s : State) : State :=
  match e with
  | .nothing => s
  | .quarter => s.setAudio (quarterClock s.audio)
  | .quarterHalf => s.setAudio (halfClock (quarterClock s.audio))
  | .last => raiseFrameIrq (s.setAudio (halfClock (quarterClock s.audio)))

/-- `Mix` (R541): the weighted sum of the five raw samples. -/
def mix (a : Audio) : Rat :=
  Config.mixPulse * ((a.pulse1.output true + a.pulse2.output false : Nat) : Rat) +
    Config.mixTriangle * (a.triangle.output : Rat) + Config.mixNoise * (a.noise.output : Rat) +
    Config.mixDmc * (a.dmc.level.toNat : Rat)

/-- The mixer and filter (R541, R542): the accumulator takes a tap, and when the tap position wraps a
sample goes to the host. -/
def mixerWork (s : State) : State :=
  let a := s.audio
  let acc := a.acc + Config.firKernel s.cart.region a.tapPos * mix a
  let wraps := decide (a.tapPos + 1 = Config.firDecimation s.cart.region)
  (s.setAudio
      { a with
        acc := if wraps then 0 else acc
        tapPos := if wraps then 0 else a.tapPos + 1 }).setOut
    { s.out with sample := if wraps then some (Config.pcm16 acc) else s.out.sample }

/-- The cycle counter after a step (R501, R504): the sequencer's last step resets it. -/
def nextCycle (e : FrameEvent) (cycle : Nat) : Nat := if e = .last then 0 else cycle + 1

/-- The step after the DMC reader (R501): the sequencer, the mixer, the cycle counter. -/
def finishAudioStep (s : State) : State :=
  let f := s.audio.frame
  let e := frameEvent s.cart.region f.mode5 f.cycle
  let s' := mixerWork (sequencerWork e s)
  s'.setAudio
    { s'.audio with frame := { s'.audio.frame with cycle := nextCycle e s'.audio.frame.cycle } }

/-- One step of the Audio Engine (R501). -/
def audioStep (s : State) : Result :=
  match dmcReader (s.setAudio (clockTimers s.audio s.cart.region)) with
  | .next s' => .next (finishAudioStep s')
  | .fault f => .fault f
  | .refused r => .refused r

end Sys2Proof.Machine
end

