-- ==== Sys2Proof/Machine/Flags.lean ====
section
/-! DEFINITION. The flag computations (10_state.md R27; 42_arithmetic.md R250, R251, R256;
44_logic.md R283; 45_shift_rotate.md R290 to R293). -/

namespace Sys2Proof.Machine

/-- `SetZN(v)` (R27). -/
def Flags.setZN (p : Flags) (v : Byte) : Flags := { p with z := v == 0, n := bitOf v 7 }

/-- `SetZN(v)` on the state. -/
def setZN (s : State) (v : Byte) : State := s.setP (s.cpu.p.setZN v)

/-- What an 8-bit operation gives: its result and the flags after it. -/
structure AluResult where
  value : Byte
  flags : Flags
  deriving DecidableEq, Repr

/-- `A + M + P.C` with its flags (R250): C is the carry out, V signed overflow. -/
def addCarry (p : Flags) (a m : Byte) : AluResult :=
  let sum := a.toNat + m.toNat + bitNat p.c
  let r := BitVec.ofNat 8 sum
  { value := r
    flags :=
      { p with c := decide (255 < sum), v := ((a ^^^ r) &&& (m ^^^ r) &&& 0x80#8) != 0 }.setZN r }

/-- SBC "is exactly ADC with the operand complemented" (R251). -/
def subBorrow (p : Flags) (a m : Byte) : AluResult := addCarry p a (m ^^^ 0xFF#8)

/-- `Compare(r, M)` (R256). -/
def compareFlags (p : Flags) (r m : Byte) : Flags :=
  { p with c := decide (m.toNat ≤ r.toNat), z := r == m, n := bitOf (r - m) 7 }

/-- BIT's flags (R283). -/
def bitFlags (p : Flags) (a m : Byte) : Flags :=
  { p with z := (a &&& m) == 0, n := bitOf m 7, v := bitOf m 6 }

/-- ASL (R290). -/
def shiftLeft (p : Flags) (m : Byte) : AluResult :=
  let r := m <<< 1
  { value := r, flags := { p with c := bitOf m 7 }.setZN r }

/-- LSR (R291). -/
def shiftRight (p : Flags) (m : Byte) : AluResult :=
  let r := m >>> 1
  { value := r, flags := { p with c := bitOf m 0 }.setZN r }

/-- ROL (R292): the old carry enters bit 0. -/
def rotateLeft (p : Flags) (m : Byte) : AluResult :=
  let r := (m <<< 1) ||| bitVec 8 p.c
  { value := r, flags := { p with c := bitOf m 7 }.setZN r }

/-- ROR (R293): the old carry enters bit 7. -/
def rotateRight (p : Flags) (m : Byte) : AluResult :=
  let r := (m >>> 1) ||| (bitVec 8 p.c <<< 7)
  { value := r, flags := { p with c := bitOf m 0 }.setZN r }

/-- INC (R265). -/
def increment (p : Flags) (m : Byte) : AluResult := { value := m + 1, flags := p.setZN (m + 1) }

/-- DEC (R268). -/
def decrement (p : Flags) (m : Byte) : AluResult := { value := m - 1, flags := p.setZN (m - 1) }

end Sys2Proof.Machine
end

