-- ==== Sys2Proof/Machine/Operands.lean ====
section
/-! DEFINITION. The addressing modes, operand access and costs (30_encoding.md R163 to R175, R180). PC
is already past the instruction when they run (R161 to R173). -/

namespace Sys2Proof.Machine

/-- A resolved memory operand: its effective address, whether a page was crossed, and the state after
the mode's own reads. -/
structure Resolved where
  ea : Word
  crossed : Bool
  state : State
  deriving DecidableEq, Repr

/-- Whether two addresses lie in different pages (R168: their high bytes differ). -/
def crossesPage (a b : Word) : Bool := hiByte a != hiByte b

/-- A base address plus an index (R168, R169, R171). -/
def indexed (base : Word) (index : Byte) (s : State) : Resolved :=
  let ea := base + index.setWidth 16
  { ea := ea, crossed := crossesPage ea base, state := s }

/-- The pointer at `z` in page zero, its second byte wrapping inside page zero (R170, R171). -/
def zeroPagePointer (s : State) (z : Byte) : ReadWord := readPair s (zeroPage z) (zeroPage (z + 1))

/-- The effective address of a memory mode (R164 to R171). -/
def resolve (m : Addr) (s : State) : Resolved :=
  match m with
  | .zp a => { ea := zeroPage a, crossed := false, state := s }
  | .zpx a => { ea := zeroPage (a + s.cpu.x), crossed := false, state := s }
  | .zpy a => { ea := zeroPage (a + s.cpu.y), crossed := false, state := s }
  | .abs a => { ea := a, crossed := false, state := s }
  | .abx a => indexed a s.cpu.x s
  | .aby a => indexed a s.cpu.y s
  | .izx a =>
    let r := zeroPagePointer s (a + s.cpu.x)
    { ea := r.value, crossed := false, state := r.state }
  | .izy a =>
    let r := zeroPagePointer s a
    indexed r.value r.state.cpu.y r.state

/-- The target of JMP (R167, R172): the pointer's second byte comes from the same page. -/
def jumpTarget (t : JumpTarget) (s : State) : ReadWord :=
  match t with
  | .abs a => { value := a, state := s }
  | .ind p => readPair s p (mkWord (hiByte p) (loByte p + 1))

/-- A read operand: its value, whether a page was crossed, and the state after the reads. -/
structure Operand where
  value : Byte
  crossed : Bool
  state : State
  deriving DecidableEq, Repr

/-- The byte of a memory operand, read once (R174). -/
def readMem (m : Addr) (s : State) : Operand :=
  let e := resolve m s
  let r := busRead e.state e.ea
  { value := r.value, crossed := e.crossed, state := r.state }

/-- `M = Operand()` of a read-class instruction (R163, R174). -/
def readSrc (src : Src) (s : State) : Operand :=
  match src with
  | .imm v => { value := v, crossed := false, state := s }
  | .mem m => readMem m s

/-- `MemWrite(EA, 1, v)` of a write-class instruction (R174, R220). -/
def storeMem (m : Addr) (value : State → Byte) (s : State) : State :=
  let e := resolve m s
  busWrite e.state e.ea (value e.state)

/-- A read-modify-write of memory (R174): `EA` resolved once, one read, one write of the result,
then the flags. -/
def modifyMem (m : RmwAddr) (op : Flags → Byte → AluResult) (s : State) : State :=
  let e := resolve m.toAddr s
  let r := busRead e.state e.ea
  let o := op r.state.cpu.p r.value
  (busWrite r.state e.ea o.value).setP o.flags

/-- A shift or rotate of its operand, the accumulator or memory (R162, R174). -/
def modifyShift (d : ShiftDst) (op : Flags → Byte → AluResult) (s : State) : State :=
  match d with
  | .acc =>
    let o := op s.cpu.p s.cpu.a
    (s.setA o.value).setP o.flags
  | .mem m => modifyMem m op s

/-- The base cost of the read class by mode (R180). -/
def readCostBase : Addr → Nat
  | .zp _ => 3
  | .zpx _ | .zpy _ => 4
  | .abs _ => 4
  | .abx _ | .aby _ => 4
  | .izx _ => 6
  | .izy _ => 5

/-- The cost of a read-class memory mode (R175, R180): modes abx, aby and izy, the only ones that can
cross, pay one more if they do. -/
def memReadCost (m : Addr) (crossed : Bool) : Nat := readCostBase m + bitNat crossed

/-- The cost of a read-class instruction (R175, R180). -/
def readCost (src : Src) (crossed : Bool) : Nat :=
  match src with
  | .imm _ => 2
  | .mem m => memReadCost m crossed

/-- The cost of the write class by mode (R180): never a penalty (R175). -/
def writeCost : Addr → Nat
  | .zp _ => 3
  | .zpx _ | .zpy _ => 4
  | .abs _ => 4
  | .abx _ | .aby _ => 5
  | .izx _ => 6
  | .izy _ => 6

/-- The cost of the read-modify-write class on memory (R180): never a penalty (R175). -/
def modifyCost : RmwAddr → Nat
  | .zp _ => 5
  | .zpx _ => 6
  | .abs _ => 6
  | .abx _ => 7

/-- The cost of a shift or rotate (R180). -/
def shiftCost : ShiftDst → Nat
  | .acc => 2
  | .mem m => modifyCost m

/-- The cost of JMP (R180, R315). -/
def jumpCost : JumpTarget → Nat
  | .abs _ => 3
  | .ind _ => 5

end Sys2Proof.Machine
end

