-- ==== Sys2Proof/Machine/Arithmetic.lean ====
section
/-! DEFINITION. Add, subtract and compare instructions (42_arithmetic.md R250 to R256). -/

namespace Sys2Proof.Machine

/-- An operation of the accumulator and an operand whose result goes to the accumulator (R250, R251). -/
def arithWith (op : Flags → Byte → Byte → AluResult) (src : Src) (s : State) : Result :=
  let o := readSrc src s
  let r := op o.state.cpu.p o.state.cpu.a o.value
  .next (charge ((o.state.setA r.value).setP r.flags) (readCost src o.crossed))

/-- A compare of a register with an operand (R252 to R254). -/
def compareWith (get : State → Byte) (src : Src) (s : State) : Result :=
  let o := readSrc src s
  .next (charge (o.state.setP (compareFlags o.state.cpu.p (get o.state) o.value)) (readCost src o.crossed))

/-- ADC (R250): binary whatever D holds. -/
def execAdc (src : Src) (s : State) : Result := arithWith addCarry src s

/-- SBC (R251). -/
def execSbc (src : Src) (s : State) : Result := arithWith subBorrow src s

/-- CMP (R252). -/
def execCmp (src : Src) (s : State) : Result := compareWith (fun s => s.cpu.a) src s

/-- CPX (R253). -/
def execCpx (src : Src) (s : State) : Result := compareWith (fun s => s.cpu.x) src s

/-- CPY (R254). -/
def execCpy (src : Src) (s : State) : Result := compareWith (fun s => s.cpu.y) src s

end Sys2Proof.Machine
end

