-- ==== Sys2Proof/Machine/Branch.lean ====
section
/-! DEFINITION. Conditional branch instructions (46_branch.md R300 to R308). -/

namespace Sys2Proof.Machine

/-- The target of a taken branch (R173, R300): PC, past the instruction, plus the signed offset. -/
def branchTarget (pc : Word) (off : Byte) : Word := pc + sext8 off

/-- The cost of a branch (R300): one more if taken, one more again if the target is in another page
than the next instruction. -/
def branchCost (taken : Bool) (pc : Word) (off : Byte) : Nat :=
  2 + bitNat taken + bitNat (taken && crossesPage (branchTarget pc off) pc)

/-- A conditional branch (R300). -/
def branchIf (taken : Bool) (off : Byte) (s : State) : Result :=
  let s' := if taken then s.setPc (branchTarget s.cpu.pc off) else s
  .next (charge s' (branchCost taken s.cpu.pc off))

/-- BCC (R301). -/
def execBcc (off : Byte) (s : State) : Result := branchIf (!s.cpu.p.c) off s

/-- BCS (R302). -/
def execBcs (off : Byte) (s : State) : Result := branchIf s.cpu.p.c off s

/-- BEQ (R303). -/
def execBeq (off : Byte) (s : State) : Result := branchIf s.cpu.p.z off s

/-- BNE (R304). -/
def execBne (off : Byte) (s : State) : Result := branchIf (!s.cpu.p.z) off s

/-- BMI (R305). -/
def execBmi (off : Byte) (s : State) : Result := branchIf s.cpu.p.n off s

/-- BPL (R306). -/
def execBpl (off : Byte) (s : State) : Result := branchIf (!s.cpu.p.n) off s

/-- BVC (R307). -/
def execBvc (off : Byte) (s : State) : Result := branchIf (!s.cpu.p.v) off s

/-- BVS (R308). -/
def execBvs (off : Byte) (s : State) : Result := branchIf s.cpu.p.v off s

end Sys2Proof.Machine
end

