-- ==== Sys2Proof/Machine/FlagOps.lean ====
section
/-! DEFINITION. Flag instructions (48_flags.md R325 to R331). -/

namespace Sys2Proof.Machine

/-- The flags replaced, in two cycles (48_flags.md). -/
def flagWith (p : Flags) (s : State) : Result := .next (charge (s.setP p) 2)

/-- CLC (R325). -/
def execClc (s : State) : Result := flagWith { s.cpu.p with c := false } s

/-- SEC (R326). -/
def execSec (s : State) : Result := flagWith { s.cpu.p with c := true } s

/-- CLI (R327). -/
def execCli (s : State) : Result := flagWith { s.cpu.p with i := false } s

/-- SEI (R328). -/
def execSei (s : State) : Result := flagWith { s.cpu.p with i := true } s

/-- CLV (R329). -/
def execClv (s : State) : Result := flagWith { s.cpu.p with v := false } s

/-- CLD (R330). -/
def execCld (s : State) : Result := flagWith { s.cpu.p with d := false } s

/-- SED (R331). -/
def execSed (s : State) : Result := flagWith { s.cpu.p with d := true } s

end Sys2Proof.Machine
end

