-- ==== Sys2Proof/Machine/IncDec.lean ====
section
/-! DEFINITION. Increment and decrement instructions (43_inc_dec.md R265 to R270). -/

namespace Sys2Proof.Machine

/-- A register stepped by one, through `put`, setting Z and N (R266, R267, R269, R270). -/
def stepWith (put : State → Byte → State) (value : Byte) (s : State) : Result :=
  .next (charge (setZN (put s value) value) 2)

/-- INC (R265). -/
def execInc (dst : RmwAddr) (s : State) : Result :=
  .next (charge (modifyMem dst increment s) (modifyCost dst))

/-- DEC (R268). -/
def execDec (dst : RmwAddr) (s : State) : Result :=
  .next (charge (modifyMem dst decrement s) (modifyCost dst))

/-- INX (R266). -/
def execInx (s : State) : Result := stepWith State.setX (s.cpu.x + 1) s

/-- INY (R267). -/
def execIny (s : State) : Result := stepWith State.setY (s.cpu.y + 1) s

/-- DEX (R269). -/
def execDex (s : State) : Result := stepWith State.setX (s.cpu.x - 1) s

/-- DEY (R270). -/
def execDey (s : State) : Result := stepWith State.setY (s.cpu.y - 1) s

end Sys2Proof.Machine
end

