-- ==== Sys2Proof/Machine/JumpCall.lean ====
section
/-! DEFINITION. Jump, call and return instructions (47_jump_call.md R315 to R318). -/

namespace Sys2Proof.Machine

/-- JMP (R315). -/
def execJmp (target : JumpTarget) (s : State) : Result :=
  let r := jumpTarget target s
  .next (charge (r.state.setPc r.value) (jumpCost target))

/-- JSR (R317): the address of its last byte is pushed, high byte first. -/
def execJsr (target : Word) (s : State) : Result :=
  .next (charge ((pushWord s (s.cpu.pc - 1)).setPc target) 6)

/-- RTS (R318). -/
def execRts (s : State) : Result :=
  let r := pullWord s
  .next (charge (r.state.setPc (r.value + 1)) 6)

end Sys2Proof.Machine
end

