-- ==== Sys2Proof/Machine/LoadStore.lean ====
section
/-! DEFINITION. Load and store instructions (40_load_store.md R220 to R226). -/

namespace Sys2Proof.Machine

/-- A load (R220): the operand goes to a register through `put`, and sets Z and N. -/
def loadWith (put : State → Byte → State) (src : Src) (s : State) : Result :=
  let o := readSrc src s
  .next (charge (setZN (put o.state o.value) o.value) (readCost src o.crossed))

/-- A store (R220): one write of a register's byte, no flag. -/
def storeWith (get : State → Byte) (dst : Addr) (s : State) : Result :=
  .next (charge (storeMem dst get s) (writeCost dst))

/-- LDA (R221). -/
def execLda (src : Src) (s : State) : Result := loadWith State.setA src s

/-- LDX (R222). -/
def execLdx (src : Src) (s : State) : Result := loadWith State.setX src s

/-- LDY (R223). -/
def execLdy (src : Src) (s : State) : Result := loadWith State.setY src s

/-- STA (R224). -/
def execSta (dst : Addr) (s : State) : Result := storeWith (fun s => s.cpu.a) dst s

/-- STX (R225). -/
def execStx (dst : Addr) (s : State) : Result := storeWith (fun s => s.cpu.x) dst s

/-- STY (R226). -/
def execSty (dst : Addr) (s : State) : Result := storeWith (fun s => s.cpu.y) dst s

end Sys2Proof.Machine
end

