-- ==== Sys2Proof/Machine/Logic.lean ====
section
/-! DEFINITION. Logical instructions (44_logic.md R280 to R283). -/

namespace Sys2Proof.Machine

/-- A logical operation of the accumulator and an operand (R280 to R282). -/
def logicWith (op : Byte → Byte → Byte) (src : Src) (s : State) : Result :=
  let o := readSrc src s
  let r := op o.state.cpu.a o.value
  .next (charge (setZN (o.state.setA r) r) (readCost src o.crossed))

/-- AND (R280). -/
def execAnd (src : Src) (s : State) : Result := logicWith (fun a m => a &&& m) src s

/-- ORA (R281). -/
def execOra (src : Src) (s : State) : Result := logicWith (fun a m => a ||| m) src s

/-- EOR (R282). -/
def execEor (src : Src) (s : State) : Result := logicWith (fun a m => a ^^^ m) src s

/-- BIT (R283): flags only. -/
def execBit (src : Addr) (s : State) : Result :=
  let o := readMem src s
  .next
    (charge (o.state.setP (bitFlags o.state.cpu.p o.state.cpu.a o.value)) (memReadCost src o.crossed))

end Sys2Proof.Machine
end

