-- ==== Sys2Proof/Machine/ShiftRotate.lean ====
section
/-! DEFINITION. Shift and rotate instructions (45_shift_rotate.md R290 to R293). -/

namespace Sys2Proof.Machine

/-- ASL (R290). -/
def execAsl (dst : ShiftDst) (s : State) : Result :=
  .next (charge (modifyShift dst shiftLeft s) (shiftCost dst))

/-- LSR (R291). -/
def execLsr (dst : ShiftDst) (s : State) : Result :=
  .next (charge (modifyShift dst shiftRight s) (shiftCost dst))

/-- ROL (R292). -/
def execRol (dst : ShiftDst) (s : State) : Result :=
  .next (charge (modifyShift dst rotateLeft s) (shiftCost dst))

/-- ROR (R293). -/
def execRor (dst : ShiftDst) (s : State) : Result :=
  .next (charge (modifyShift dst rotateRight s) (shiftCost dst))

end Sys2Proof.Machine
end

