-- ==== Sys2Proof/Machine/System.lean ====
section
/-! DEFINITION. System instructions and unrecognized opcodes (49_system.md R340 to R343). -/

namespace Sys2Proof.Machine

/-- BRK (R340): the byte after the opcode is skipped unread, then the interrupt sequence. -/
def execBrk (s : State) : Result :=
  .next (charge (takeInterrupt .brk (s.setPc (s.cpu.pc + 1))) 7)

/-- RTI (R341). -/
def execRti (s : State) : Result := .next (charge (returnFromInterrupt s) 6)

/-- NOP (R342). -/
def execNop (s : State) : Result := .next (charge s 2)

/-- An unrecognized opcode (R343): one cycle, nothing else. The log of R571 is the host's. -/
def execUnrecognized (_op : Byte) (s : State) : Result := .next (charge s 1)

end Sys2Proof.Machine
end

