-- ==== Sys2Proof/Machine/TransferStack.lean ====
section
/-! DEFINITION. Register transfer and stack instructions (41_transfer_stack.md R230 to R239). -/

namespace Sys2Proof.Machine

/-- A transfer into a register through `put` that sets Z and N (R230 to R234). -/
def transferWith (put : State → Byte → State) (value : Byte) (s : State) : Result :=
  .next (charge (setZN (put s value) value) 2)

/-- TAX (R230). -/
def execTax (s : State) : Result := transferWith State.setX s.cpu.a s

/-- TAY (R231). -/
def execTay (s : State) : Result := transferWith State.setY s.cpu.a s

/-- TXA (R232). -/
def execTxa (s : State) : Result := transferWith State.setA s.cpu.x s

/-- TYA (R233). -/
def execTya (s : State) : Result := transferWith State.setA s.cpu.y s

/-- TSX (R234). -/
def execTsx (s : State) : Result := transferWith State.setX s.cpu.sp s

/-- TXS (R235): the one transfer that leaves the flags alone. -/
def execTxs (s : State) : Result := .next (charge (s.setSp s.cpu.x) 2)

/-- PHA (R236). -/
def execPha (s : State) : Result := .next (charge (push s s.cpu.a) 3)

/-- PHP (R237): the pushed copy has bits 5 and 4 set. -/
def execPhp (s : State) : Result := .next (charge (push s (s.cpu.p.pushed true)) 3)

/-- PLA (R238). -/
def execPla (s : State) : Result :=
  let r := pull s
  .next (charge (setZN (r.state.setA r.value) r.value) 4)

/-- PLP (R239). -/
def execPlp (s : State) : Result := .next (charge (pullFlags s) 4)

end Sys2Proof.Machine
end

