-- ==== Sys2Proof/Machine/Processor.lean ====
section
/-! DEFINITION. The processor's step (60_exceptions.md R400 to R408). -/

namespace Sys2Proof.Machine

/-- What an execution step performs: exactly one of three things (R400, R408). -/
inductive Poll where
  | nmi | irq | instruction
  deriving DecidableEq, Repr

/-- The interrupt poll (R403, R408): NMI first, then the maskable line if I is clear. -/
def poll (c : Cpu) : Poll :=
  if c.nmi then .nmi else if c.irq.any && !c.p.i then .irq else .instruction

/-- One instruction: its bytes are fetched, then it runs (R177). -/
def runInstruction (s : State) : Result :=
  let f := fetchInstr s
  exec f.instr f.state

/-- An execution step (R400). -/
def executionStep (s : State) : Result :=
  match poll s.cpu with
  | .nmi => .next (charge (takeInterrupt .nmi (s.setNmi false)) 7)
  | .irq => .next (charge (takeInterrupt .irq s) 7)
  | .instruction => runInstruction s

/-- `step()` (R400): idle while cycles are pending. -/
def processorStep (s : State) : Result :=
  if 0 < s.cpu.pending then .next (s.setPending (s.cpu.pending - 1)) else executionStep s

end Sys2Proof.Machine
end

