-- ==== Sys2Proof/Machine/Video.lean ====
section
/-! DEFINITION. The Video Engine's dot state machine (61_video_engine.md R463 to R471). -/

namespace Sys2Proof.Machine

/-- "Rendering is enabled" (R453). -/
def renderingEnabled (mask : Byte) : Bool := bitOf mask 3 || bitOf mask 4

/-- The horizontal copy from the temporary to the current address (R464, R465). -/
def copyHorizontal (v t : BitVec 15) : BitVec 15 :=
  setField (setField v 0 (field t 0 5)) 10 (field t 10 1)

/-- The vertical copy from the temporary to the current address (R464). -/
def copyVertical (v t : BitVec 15) : BitVec 15 :=
  setField (setField (setField v 5 (field t 5 5)) 11 (field t 11 1)) 12 (field t 12 3)

/-- Coarse X moved one tile right, into the other nametable after tile 31 (R465). -/
def incrementX (v : BitVec 15) : BitVec 15 :=
  if field v 0 5 = 31#5 then setField (setField v 0 (0 : BitVec 5)) 10 (field v 10 1 ^^^ 1)
  else setField v 0 (field v 0 5 + 1)

/-- Y moved one pixel row down, with its wraps (R465). -/
def incrementY (v : BitVec 15) : BitVec 15 :=
  if (field v 12 3).toNat < 7 then setField v 12 (field v 12 3 + 1)
  else
    let u := setField v 12 (0 : BitVec 3)
    if field v 5 5 = 29#5 then setField (setField u 5 (0 : BitVec 5)) 11 (field v 11 1 ^^^ 1)
    else if field v 5 5 = 31#5 then setField u 5 (0 : BitVec 5)
    else setField u 5 (field v 5 5 + 1)

/-- The two-bit colour of one pixel of a pattern row whose low plane is at `addr` (R465, R468). -/
def patternPixel (s : State) (addr : BitVec 14) (bit : Nat) : BitVec 2 :=
  bitVec 2 (bitOf (videoRead s (addr + 8)) bit) <<< 1 ||| bitVec 2 (bitOf (videoRead s addr) bit)

/-- `fx` of a dot (R465). -/
def fineColumn (d : Video) (x : Nat) : Nat := (d.fineX.toNat + x) % 8

/-- The pattern address of the background tile row (R465). -/
def backgroundAddr (s : State) : BitVec 14 :=
  let v : BitVec 14 := field s.video.v 0 14
  let tile := videoRead s (0x2000#14 ||| (v &&& 0x0FFF#14))
  bitVec 14 (bitOf s.video.ctrl 4) <<< 12 ||| tile.setWidth 14 <<< 4 |||
    (field s.video.v 12 3).setWidth 14

/-- The palette select of the background tile, from its attribute byte (R465). -/
def backgroundPalette (s : State) : BitVec 2 :=
  let v : BitVec 14 := field s.video.v 0 14
  let attr :=
    videoRead s
      (0x23C0#14 ||| (v &&& 0x0C00#14) ||| ((v >>> 4) &&& 0x38#14) ||| ((v >>> 2) &&& 0x07#14))
  let sh := (((v >>> 4) &&& 4#14) ||| (v &&& 2#14)).toNat
  field attr sh 2

/-- The background colour index of a dot, 0 for transparent (R465). -/
def backgroundPixel (s : State) (x : Nat) : BitVec 5 :=
  if bitOf s.video.mask 3 && (bitOf s.video.mask 1 || decide (8 ≤ x)) then
    let pix := patternPixel s (backgroundAddr s) (7 - fineColumn s.video x)
    if pix = 0 then 0 else (backgroundPalette s).setWidth 5 <<< 2 ||| pix.setWidth 5
  else 0

/-- The height of a sprite (R467). -/
def spriteHeight (ctrl : Byte) : Nat := if bitOf ctrl 5 then 16 else 8

/-- Byte `k` of OAM entry `i` (R466). -/
def oamByte (d : Video) (i k : Nat) : Byte := Memory.read d.oam (4 * i + k)

/-- Whether sprite `i` covers the line after scanline `line` (R467). -/
def spriteCovers (d : Video) (line i : Nat) : Bool :=
  let y := (oamByte d i 0).toNat
  decide (y ≤ line) && decide (line - y < spriteHeight d.ctrl)

/-- Sprite selection at the end of scanline `line` (R467): the first 8 that cover, by ascending
index. -/
def selectSprites (d : Video) (line : Nat) : List Nat :=
  ((List.range 64).filter (spriteCovers d line)).take 8

/-- An opaque sprite pixel: its colour index, whether it is in front, and its OAM entry (R468). -/
structure SpritePixel where
  colour : BitVec 5
  front : Bool
  index : Nat
  deriving DecidableEq, Repr

/-- The pattern address of a sprite's row (R468). A row outside the sprite, which a change of OAM or
of the sprite size after the selection can give, is reduced to the 14 bits of a video address (R111).
Log entry 16. -/
def spriteAddr (ctrl tile : Byte) (row : Int) : BitVec 14 :=
  if spriteHeight ctrl = 8 then
    bitVec 14 (bitOf ctrl 3) <<< 12 ||| tile.setWidth 14 <<< 4 ||| BitVec.ofInt 14 row
  else
    bitVec 14 (bitOf tile 0) <<< 12 ||| (tile &&& 0xFE#8).setWidth 14 <<< 4 |||
      BitVec.ofInt 14 (if 8 ≤ row then 16 + (row - 8) else row)

/-- What sprite `i` shows at (x, y): nothing if the dot is outside it or the pixel is transparent
(R468). -/
def spriteAt (s : State) (x y i : Nat) : Option SpritePixel :=
  let d := s.video
  let sx := (oamByte d i 3).toNat
  let attr := oamByte d i 2
  if sx ≤ x ∧ x - sx < 8 then
    let col := if bitOf attr 6 then x - sx else 7 - (x - sx)
    let row : Int := (y : Int) - 1 - ((oamByte d i 0).toNat : Int)
    let row := if bitOf attr 7 then ((spriteHeight d.ctrl : Int) - 1) - row else row
    let pix := patternPixel s (spriteAddr d.ctrl (oamByte d i 1) row) col
    if pix = 0 then none
    else
      some
        { colour := 0x10#5 ||| (field attr 0 2).setWidth 5 <<< 2 ||| pix.setWidth 5
          front := !bitOf attr 5
          index := i }
  else none

/-- The first opaque sprite of a list at (x, y) (R468: "first matching, non-transparent sprite
wins"). -/
def firstSprite (s : State) (x y : Nat) : List Nat → Option SpritePixel
  | [] => none
  | i :: is =>
    match spriteAt s x y i with
    | some p => some p
    | none => firstSprite s x y is

/-- The sprite pixel of a dot (R468). -/
def spritePixel (s : State) (x y : Nat) : Option SpritePixel :=
  if bitOf s.video.mask 4 && (bitOf s.video.mask 2 || decide (8 ≤ x)) then
    firstSprite s x y s.video.lineSprites
  else none

/-- The winning colour index (R469). -/
def resolvePriority (bg : BitVec 5) (sp : Option SpritePixel) : BitVec 5 :=
  match sp with
  | none => bg
  | some p => if bg = 0 then p.colour else if p.front then p.colour else bg

/-- Whether the dot sets the sprite-zero-hit flag (R469). -/
def spriteZeroHit (mask : Byte) (bg : BitVec 5) (sp : Option SpritePixel) : Bool :=
  match sp with
  | none => false
  | some p => decide (p.index = 0) && decide (bg ≠ 0) && bitOf mask 3 && bitOf mask 4

/-- The colour byte of an index, after grayscale (R469). -/
def colourOf (s : State) (idx : BitVec 5) : Byte :=
  let c := videoRead s (0x3F00#14 + idx.setWidth 14)
  if bitOf s.video.mask 0 then c &&& 0x30#8 else c

/-- The current address after a visible dot: coarse X moves at the tile's last column, with the
background shown (R465). -/
def addressAfterDot (d : Video) (x : Nat) : BitVec 15 :=
  if bitOf d.mask 3 && decide (fineColumn d x = 7) then incrementX d.v else d.v

/-- A visible dot (R465, R468, R469): the pixel is emitted, the hit flag and the address updated. -/
def visibleDot (s : State) (x y : Nat) : State :=
  let bg := backgroundPixel s x
  let sp := spritePixel s x y
  let colour := colourOf s (resolvePriority bg sp)
  let d := s.video
  (s.setVideo
      { d with
        v := addressAfterDot d x
        sprite0Hit := d.sprite0Hit || spriteZeroHit d.mask bg sp }).setOut
    { s.out with pixel := some { x := x, y := y, rgba := Config.paletteRgba (field colour 0 6) } }

/-- The work of a dot of a render scanline (R465, R468, R469). -/
def renderDot (s : State) : State :=
  let d := s.video
  if 1 ≤ d.dot ∧ d.dot ≤ 256 then visibleDot s (d.dot - 1) d.scanline
  else if d.dot = 257 ∧ renderingEnabled d.mask = true then s.setVideo { d with v := incrementY d.v }
  else if d.dot = 258 ∧ renderingEnabled d.mask = true then
    s.setVideo { d with v := copyHorizontal d.v d.t }
  else s

/-- The work of a dot of the pre-render scanline (R464). -/
def preRenderDot (s : State) : State :=
  let d := s.video
  if d.dot = 1 then s.setVideo { d with vblank := false, sprite0Hit := false }
  else if d.dot = 257 ∧ renderingEnabled d.mask = true then
    s.setVideo { d with v := copyHorizontal d.v d.t }
  else if (280 ≤ d.dot ∧ d.dot ≤ 304) ∧ renderingEnabled d.mask = true then
    s.setVideo { d with v := copyVertical d.v d.t }
  else s

/-- The work of a dot of the vertical blank (R470): the flag and the NMI at scanline 241, dot 1. -/
def verticalBlankDot (s : State) : State :=
  let d := s.video
  if d.scanline = 241 ∧ d.dot = 1 then
    let s' := s.setVideo { d with vblank := true }
    if bitOf d.ctrl 7 then s'.setNmi true else s'
  else s

/-- The work of the current dot, by stage (R463). Post-render is idle (R471). -/
def dotWork (s : State) : State :=
  match s.video.stage with
  | .preRender => preRenderDot s
  | .render => renderDot s
  | .postRender => s
  | .verticalBlank => verticalBlankDot s

/-- The length of the current scanline in dots (R451, R464): one less on an odd frame's pre-render
line with rendering enabled. -/
def lineLength (d : Video) : Nat :=
  if d.stage = .preRender ∧ d.oddFrame = true ∧ renderingEnabled d.mask = true then 340 else 341

/-- What the end of a scanline does besides moving on (R464, R467, R470). -/
def lineEndWork (d : Video) : Video :=
  match d.stage with
  | .preRender => { d with lineSprites := [] }
  | .render => { d with lineSprites := selectSprites d d.scanline }
  | .postRender => d
  | .verticalBlank => if d.scanline = 260 then { d with oddFrame := !d.oddFrame } else d

/-- The scanline after one (R463): 261 wraps to 0. -/
def nextScanline (n : Nat) : Nat := if n < 261 then n + 1 else 0

/-- The end of a scanline (R463, R467, R471): its work, the mapper's notification (R126), the redraw
signal after the post-render line, and the next line's position and stage. -/
def endLine (s : State) : State :=
  let d := lineEndWork s.video
  let n := nextScanline d.scanline
  ((s.setMapper (scanlineNotify (decide (s.video.stage = .verticalBlank)) s.mapper)).setVideo
      { d with dot := 0, scanline := n, stage := stageOf n }).setOut
    { s.out with redraw := s.out.redraw || decide (s.video.stage = .postRender) }

/-- The move to the next dot (R463). -/
def advanceDot (s : State) : State :=
  if lineLength s.video ≤ s.video.dot + 1 then endLine s
  else s.setVideo { s.video with dot := s.video.dot + 1 }

/-- One step of the Video Engine: one dot (R463). -/
def videoStep (s : State) : State := advanceDot (dotWork s)

end Sys2Proof.Machine
end

