-- ==== Sys2Proof/Machine/Scheduler.lean ====
section
/-! DEFINITION. The Scheduler's tick (63_scheduler_and_host.md R561). -/

namespace Sys2Proof.Machine

/-- ENGINE_ORDER as the list it stands for (R8, R561). -/
def orderOf : EngineOrder → List Engine
  | .pva => [.processor, .video, .audio]
  | .pav => [.processor, .audio, .video]
  | .vpa => [.video, .processor, .audio]
  | .vap => [.video, .audio, .processor]
  | .apv => [.audio, .processor, .video]
  | .avp => [.audio, .video, .processor]

/-- The divider constants (R561). -/
def divider (r : Region) (e : Engine) : Nat :=
  match r, e with
  | .ntsc, .processor => 12
  | .ntsc, .video => 4
  | .ntsc, .audio => 12
  | .pal, .processor => 16
  | .pal, .video => 5
  | .pal, .audio => 16

/-- An engine's divider counter. -/
def Sched.counter (c : Sched) : Engine → Nat
  | .processor => c.divProcessor
  | .video => c.divVideo
  | .audio => c.divAudio

/-- An engine's divider counter replaced. -/
def Sched.withCounter (c : Sched) (e : Engine) (n : Nat) : Sched :=
  match e with
  | .processor => { c with divProcessor := n }
  | .video => { c with divVideo := n }
  | .audio => { c with divAudio := n }

/-- One step of an engine (R561). -/
def stepEngine (e : Engine) (s : State) : Result :=
  match e with
  | .processor => processorStep s
  | .video => .next (videoStep s)
  | .audio => audioStep s

/-- What comes after a step that answered a next state. -/
def andThen (r : Result) (k : State → Result) : Result :=
  match r with
  | .next s => k s
  | .fault f => .fault f
  | .refused x => .refused x

/-- An engine's divider counter set on the state. -/
def setCounter (e : Engine) (n : Nat) (s : State) : State := s.setSched (s.sched.withCounter e n)

/-- One engine's part of a tick (R561): a step if its divider is 0, else its divider counts down. -/
def tickEngine (e : Engine) (s : State) : Result :=
  if s.sched.counter e = 0 then
    andThen (stepEngine e s) fun s' => .next (setCounter e (divider s.cart.region e - 1) s')
  else .next (setCounter e (s.sched.counter e - 1) s)

/-- The engines of a tick, in order (R561). -/
def tickEngines : List Engine → State → Result
  | [], s => .next s
  | e :: es, s => andThen (tickEngine e s) (tickEngines es)

/-- One master-clock tick (R561). What it gives the host stands in `out` until the next tick. -/
def tick (s : State) : Result := tickEngines (orderOf s.params.engineOrder) (s.setOut Output.none)

/-- Where a fetched byte can be placed: work RAM, enabled save RAM and program ROM. -/
def canPlace (s : State) (addr : Word) : Bool :=
  match windowOf addr with
  | .ram _ | .rom => true
  | .saveRam _ => s.cart.battery && s.params.prgRamEnabled
  | .video _ | .channel _ | .spriteDma | .audioStatus | .pad0 | .pad1 | .gap => false

/-- The byte placed where a read of the address finds it; program ROM stands for the load of a
cartridge. Log entry 23. -/
def placeByte (s : State) (addr : Word) (b : Byte) : State :=
  match windowOf addr with
  | .ram cell => s.setBus { s.bus with ram := Memory.write s.bus.ram cell.toNat b }
  | .saveRam cell => s.setBus { s.bus with prgRam := Memory.write s.bus.prgRam cell.toNat b }
  | .rom =>
    { s with
      cart := { s.cart with prg := Memory.write s.cart.prg (prgIndex s.cart s.mapper.regs addr) b } }
  | .video _ | .channel _ | .spriteDma | .audioStatus | .pad0 | .pad1 | .gap => s

/-- Bytes placed from an address up. -/
def placeBytes (s : State) : Word → List Byte → State
  | _, [] => s
  | a, b :: bs => placeBytes (placeByte s a b) (a + 1) bs

/-- Whether three bytes can be placed at PC. -/
def canFetchAt (s : State) (pc : Word) : Bool :=
  canPlace s pc && canPlace s (pc + 1) && canPlace s (pc + 2)

/-- Whether the processor is the first engine of a tick. -/
def processorFirst (o : EngineOrder) : Bool := decide ((orderOf o).head? = some .processor)

/-- The state made ready for an execution step at the next tick that runs an instruction: nothing
pending, no interrupt to take, the processor due and no engine stepping before it. -/
def readyToFetch (s : State) : State :=
  let keep := processorFirst s.params.engineOrder
  let c := s.sched
  let irq := if s.cpu.irq.any && !s.cpu.p.i then IrqLines.none else s.cpu.irq
  (((s.setPending 0).setNmi false).setIrq irq).setSched
    { divProcessor := 0
      divVideo := if keep then c.divVideo else max c.divVideo 1
      divAudio := if keep then c.divAudio else max c.divAudio 1 }

/-- The state with an instruction's bytes stored where the next fetch reads them, ready to fetch. PC
moves, to 0x0200 in work RAM, only if bytes cannot be stored where it points. Log entry 23. -/
def placeInstruction (s : State) (bytes : List Byte) : State :=
  let s' := readyToFetch s
  let pc := if canFetchAt s' s'.cpu.pc then s'.cpu.pc else 0x0200#16
  placeBytes (s'.setPc pc) pc bytes

end Sys2Proof.Machine
end

