-- ==== Sys2Proof/Machine/Step.lean ====
section
/-! DEFINITION. One step of the machine: one master-clock tick (63_scheduler_and_host.md R560: "one
transition is one master-clock tick"). Log entry 4. -/

namespace Sys2Proof.Machine

/-- One transition of the machine (R560, R561). -/
def step (s : State) : Host.Outcome State Fault Refusal := tick s

/-- The state whose next step fetches and runs the instruction of an opcode-table word. -/
def State.withFetchWord (s : State) (nbits w : Nat) : State := placeInstruction s (tableBytes nbits w)

end Sys2Proof.Machine
end

