-- ==== Sys2Proof/Machine/Startup.lean ====
section
/-! DEFINITION. The start of a session (21_bus_and_mapper.md R101, R125; 63_scheduler_and_host.md
R570): the cartridge file's header contract and the status codes of a start that never happens. -/

namespace Sys2Proof.Machine

/-- The load failures of R101, "each a distinct status code". -/
inductive LoadStatus where
  /-- Unreadable or missing file. -/
  | unreadable
  /-- Short or failed read. -/
  | shortRead
  /-- The first four bytes are not N, E, S, 0x1A: "reject as wrong format". -/
  | badMagic
  | zeroProgramBanks
  /-- "Trainer region unsupported". -/
  | trainerPresent
  /-- The host has no memory for the buffers. No function of the model gives it. -/
  | allocationFailure
  deriving DecidableEq, Repr

/-- Why emulation never starts (R570). -/
inductive StartStatus where
  | load (status : LoadStatus)
  /-- Not a valid Cartridge (R102): "refuses anything else". -/
  | invalidCartridge
  /-- Mapper id other than 0 to 3 (R125). -/
  | unsupportedMapper (id : Nat)
  /-- The host has no memory for the mapper's RAM. No function of the model gives it. -/
  | mapperAllocation
  deriving DecidableEq, Repr

/-- Header byte `n` (R101). -/
def headerByte (file : List Byte) (n : Nat) : Byte := file.getD n 0x00#8

/-- The mapper id of a header (R101). -/
def headerMapperId (file : List Byte) : Nat :=
  ((headerByte file 7 &&& 0xF0#8) ||| (headerByte file 6 >>> 4)).toNat

/-- The cartridge of a file whose header has been checked (R101, R102, R113). -/
def cartridgeOf (file : List Byte) : Cartridge :=
  let prgBanks := (headerByte file 4).toNat
  let chrBanks := (headerByte file 5).toNat
  let body := file.drop 16
  { prg := Memory.ofBytes 0 (body.take (prgBanks * 16384))
    chr := Memory.ofBytes 0 ((body.drop (prgBanks * 16384)).take (chrBanks * 8192))
    prgBanks := prgBanks
    chrBanks := chrBanks
    mirroring := if bitOf (headerByte file 6) 0 then .vertical else .horizontal
    mapperId := headerMapperId file
    region := if bitOf (headerByte file 9) 0 then .pal else .ntsc
    battery := bitOf (headerByte file 6) 1 }

/-- How many bytes a file must have for its header's payload sizes (R101). -/
def fileSize (file : List Byte) : Nat :=
  16 + (headerByte file 4).toNat * 16384 + (headerByte file 5).toNat * 8192

/-- The loader's contract (R101): the cartridge, or the status code of the first check that fails, in
the order the failures are listed. `none` is a file that cannot be read. Log entry 29. -/
def loadCartridge : Option (List Byte) → Except LoadStatus Cartridge
  | none => .error .unreadable
  | some file =>
    if file.length < 16 then .error .shortRead
    else if file.take 4 ≠ [0x4E#8, 0x45#8, 0x53#8, 0x1A#8] then .error .badMagic
    else if headerByte file 4 = 0 then .error .zeroProgramBanks
    else if bitOf (headerByte file 6) 2 then .error .trainerPresent
    else if file.length < fileSize file then .error .shortRead
    else .ok (cartridgeOf file)

/-- The start of a session (R570): "a model takes a valid Cartridge as its argument and refuses anything
else"; then the mapper constructed for the cartridge's id, then the reset operation. -/
def startSession (l : Launch) : Except StartStatus State :=
  if l.cart.valid = false then .error .invalidCartridge
  else
    match MapperRegs.ofId l.cart.mapperId with
    | none => .error (.unsupportedMapper l.cart.mapperId)
    | some regs => .ok (State.powerOn l regs)

/-- The start from a cartridge file, the other launch values given (R570). -/
def startFile (file : Option (List Byte)) (l : Launch) : Except StartStatus State :=
  match loadCartridge file with
  | .error e => .error (.load e)
  | .ok c => startSession { l with cart := c }

end Sys2Proof.Machine
end

