-- ==== Sys2Proof/Safety.lean ====
section
/-! DEFINITION. The terms the statements are made in: what plain memory is, what an instruction leaves
unchanged, and the invariants of a run. -/

namespace Sys2Proof.Machine

/-- The flags after `SetZN(v)` (R27), in the rule's own words: "zero = result byte is 0; negative =
bit 7 of result". -/
def Flags.withZN (p : Flags) (v : Byte) : Flags :=
  { p with z := decide (v.toNat = 0), n := decide (128 ≤ v.toNat) }

/-- Whether an address is plain memory, whose read has no effect (R65): work RAM, save RAM that is
present and enabled (R109), program ROM. -/
def plainMemory (s : State) (addr : Word) : Bool :=
  match windowOf addr with
  | .ram _ | .rom => true
  | .saveRam _ => s.cart.battery && s.params.prgRamEnabled
  | .video _ | .channel _ | .spriteDma | .audioStatus | .pad0 | .pad1 | .gap => false

/-- An address of plain memory reads in `t` as it read in `s`. -/
def ByteKept (s t : State) (addr : Word) : Prop :=
  plainMemory s addr = true → (busRead t addr).value = (busRead s addr).value

/-- Every byte of every memory reads in `t` as it read in `s`: the plain memory of the processor
space, the whole video space (R111), sprite memory (R466). -/
structure MemoryKept (s t : State) : Prop where
  processor : ∀ addr, ByteKept s t addr
  video : ∀ addr, videoRead t addr = videoRead s addr
  oam : ∀ n, Memory.read t.video.oam n = Memory.read s.video.oam n

/-- Everything outside the processor's registers is the same in `t` as in `u`. -/
structure SameOutside (u t : State) : Prop where
  bus : t.bus = u.bus
  mapper : t.mapper = u.mapper
  video : t.video = u.video
  audio : t.audio = u.audio
  sched : t.sched = u.sched
  cart : t.cart = u.cart
  params : t.params = u.params
  draws : t.draws = u.draws
  out : t.out = u.out

/-- Everything outside the processor's registers and work RAM is the same in `t` as in `s`. -/
def OnlyRamOutside (s t : State) : Prop :=
  SameOutside (s.setBus { s.bus with ram := t.bus.ram }) t

/-- Whether a byte stored to `ea` can be what a read of `addr` finds: the same cell of work or save RAM
(R105, R109), or, for a store to the mapper's registers, any byte of the ROM window (R104). -/
def storeTouches (ea addr : Word) : Bool :=
  match windowOf ea, windowOf addr with
  | .ram i, .ram j => decide (i = j)
  | .saveRam i, .saveRam j => decide (i = j)
  | .rom, .rom => true
  | _, _ => false

/-- What a store to `ea` leaves unchanged in the memories: all plain memory but the stored byte; video
memory, unless `ea` is the video data register or a mapper register; sprite memory, unless `ea` is the
OAM data register or the sprite DMA trigger. -/
structure StoreFrame (ea : Word) (s t : State) : Prop where
  processor : ∀ addr, storeTouches ea addr = false → ByteKept s t addr
  video :
    windowOf ea ≠ .video 7 → windowOf ea ≠ .rom → ∀ addr, videoRead t addr = videoRead s addr
  oam :
    windowOf ea ≠ .video 4 → windowOf ea ≠ .spriteDma →
      ∀ n, Memory.read t.video.oam n = Memory.read s.video.oam n

/-- The stall a store adds to the pending-cycle counter: OAM_DMA_STALL for the sprite DMA trigger
(R127), nothing for any other address. -/
def storeStall (s : State) (ea : Word) : Nat := if ea = 0x4014#16 then s.params.oamDmaStall else 0

/-- The effect of an instruction that writes registers only: `c` is the processor after it, `u` the
state after its operand's own reads. -/
structure RegisterEffect (s u t : State) (c : Cpu) : Prop where
  cpu : t.cpu = c
  outside : SameOutside u t
  memory : MemoryKept s t

/-- The effect of an instruction that stores byte `v` to `ea`: `c` is the processor after it, `u` the
state after its operand's own reads. -/
structure StoreEffect (s u t : State) (ea : Word) (v : Byte) (c : Cpu) : Prop where
  cpu : t.cpu = c
  outside : SameOutside (busWrite u ea v) t
  memory : StoreFrame ea s t
  /-- Work RAM holds the byte (R105). -/
  ram : ∀ cell, windowOf ea = .ram cell → (busRead t ea).value = v

/-- The stack slot `n` bytes below the current one: SP wraps (R23). -/
def stackSlot (s : State) (n : Byte) : Word := stackAddr (s.cpu.sp - n)

/-- The three bytes an interrupt sequence pushes and what it leaves unchanged (R404). -/
structure PushedFrame (s t : State) (pc : Word) (flags : Byte) : Prop where
  high : (busRead t (stackSlot s 0)).value = hiByte pc
  low : (busRead t (stackSlot s 1)).value = loByte pc
  flags : (busRead t (stackSlot s 2)).value = flags
  memory :
    ∀ addr, storeTouches (stackSlot s 0) addr = false → storeTouches (stackSlot s 1) addr = false →
      storeTouches (stackSlot s 2) addr = false → ByteKept s t addr
  outside : OnlyRamOutside s t

/-- The bytes at PC and after it, all in plain memory. -/
def BytesAt (s : State) (bytes : List Byte) : Prop :=
  ∀ k b, bytes[k]? = some b →
    plainMemory s (s.cpu.pc + BitVec.ofNat 16 k) = true ∧
      (busRead s (s.cpu.pc + BitVec.ofNat 16 k)).value = b

/-- A one-byte encoding: the opcode of an instruction without operand bytes, and its cycles. -/
def OneByte (op : Byte) (i : Instr) (cycles : Nat) : Prop := opRow op = some ⟨op, .f1 i, cycles, false⟩

/-- The opcodes and base cycles of a mnemonic with the eight modes of the accumulator group (the
"Encodings" lines of files 40, 42 and 44), with the page-cross penalty on abx, aby and izy. -/
structure AluEncodings (mk : Src → Instr) (imm zp zpx abs abx aby izx izy : Byte) : Prop where
  imm : opRow imm = some ⟨imm, .f2 fun v => mk (.imm v), 2, false⟩
  zp : opRow zp = some ⟨zp, .f2 fun a => mk (.mem (.zp a)), 3, false⟩
  zpx : opRow zpx = some ⟨zpx, .f2 fun a => mk (.mem (.zpx a)), 4, false⟩
  abs : opRow abs = some ⟨abs, .f3 fun a => mk (.mem (.abs a)), 4, false⟩
  abx : opRow abx = some ⟨abx, .f3 fun a => mk (.mem (.abx a)), 4, true⟩
  aby : opRow aby = some ⟨aby, .f3 fun a => mk (.mem (.aby a)), 4, true⟩
  izx : opRow izx = some ⟨izx, .f2 fun a => mk (.mem (.izx a)), 6, false⟩
  izy : opRow izy = some ⟨izy, .f2 fun a => mk (.mem (.izy a)), 5, true⟩

/-- The opcodes and base cycles of a mnemonic's read-modify-write forms (files 43 and 45). -/
structure RmwEncodings (mk : RmwAddr → Instr) (zp zpx abs abx : Byte) : Prop where
  zp : opRow zp = some ⟨zp, .f2 fun a => mk (.zp a), 5, false⟩
  zpx : opRow zpx = some ⟨zpx, .f2 fun a => mk (.zpx a), 6, false⟩
  abs : opRow abs = some ⟨abs, .f3 fun a => mk (.abs a), 6, false⟩
  abx : opRow abx = some ⟨abx, .f3 fun a => mk (.abx a), 7, false⟩

/-- An instruction of one byte runs in every state: it has that opcode and cost, and changes the
processor's registers by `after` and nothing else. -/
def ImpliedEffect (op : Byte) (i : Instr) (cycles : Nat) (after : Cpu → Cpu) : Prop :=
  OneByte op i cycles ∧
    ∀ s : State, ∃ t, exec i s = .next t ∧
      RegisterEffect s s t { after s.cpu with pending := s.cpu.pending + (cycles - 1) }

/-- An instruction of the read class (R179) runs in every state and on every operand: it reads the
operand once (R174), changes the registers by `after` of the operand's value, and costs what its mode
and the page crossing say (R175, R180). -/
def ReadEffect (mk : Src → Instr) (after : Cpu → Byte → Cpu) : Prop :=
  ∀ (src : Src) (s : State),
    let o := readSrc src s
    ∃ t, exec (mk src) s = .next t ∧
      RegisterEffect s o.state t
        { after s.cpu o.value with
          irq := o.state.cpu.irq
          pending := s.cpu.pending + (readCost src o.crossed - 1) }

/-- An instruction of the write class (R179) runs in every state and on every operand: it stores a
register's byte at the operand's effective address, and changes no register. -/
def StoreClassEffect (mk : Addr → Instr) (value : Cpu → Byte) : Prop :=
  ∀ (dst : Addr) (s : State),
    let e := resolve dst s
    let v := value s.cpu
    ∃ t, exec (mk dst) s = .next t ∧
      StoreEffect s e.state t e.ea v
        { s.cpu with
          irq := (busWrite e.state e.ea v).cpu.irq
          pending := s.cpu.pending + storeStall s e.ea + (writeCost dst - 1) }

/-- An instruction of the read-modify-write class (R179) runs in every state and on every operand: it
reads the byte at the effective address once, stores `result` of it there once, and writes the flags
`flags` of the operand and the result. -/
def ModifyEffect (mk : RmwAddr → Instr) (result : Flags → Nat → Nat)
    (flags : Flags → Nat → Byte → Flags) : Prop :=
  ∀ (dst : RmwAddr) (s : State),
    let e := resolve dst.toAddr s
    let r := busRead e.state e.ea
    let v := BitVec.ofNat 8 (result s.cpu.p r.value.toNat)
    ∃ t, exec (mk dst) s = .next t ∧
      StoreEffect s r.state t e.ea v
        { s.cpu with
          p := flags s.cpu.p r.value.toNat v
          irq := (busWrite r.state e.ea v).cpu.irq
          pending := s.cpu.pending + storeStall s e.ea + (modifyCost dst - 1) }

/-- A shift or rotate of the accumulator (R162) and of memory: the result and the carry of an operand,
then Z and N of the result. -/
def ShiftEffect (acc : Byte) (mk : ShiftDst → Instr) (result : Flags → Nat → Nat)
    (carry : Nat → Bool) : Prop :=
  ImpliedEffect acc (mk .acc) 2
      (fun c =>
        let v := BitVec.ofNat 8 (result c.p c.a.toNat)
        { c with a := v, p := Flags.withZN { c.p with c := carry c.a.toNat } v }) ∧
    ModifyEffect (fun m => mk (.mem m)) result
      fun p m v => Flags.withZN { p with c := carry m } v

/-- A conditional branch (R300) runs in every state: if the condition holds PC goes to the signed
offset from the next instruction, at cost 3, or 4 if the target lies in another page; if not, PC stays
and the cost is 2. -/
def BranchEffect (op : Byte) (mk : Byte → Instr) (cond : Flags → Bool) : Prop :=
  opRow op = some ⟨op, .f2 mk, 2, false⟩ ∧
    ∀ (off : Byte) (s : State),
      let target : Word := BitVec.ofInt 16 (s.cpu.pc.toNat + off.toInt)
      let cost := if target.toNat / 256 = s.cpu.pc.toNat / 256 then 3 else 4
      ∃ t, exec (mk off) s = .next t ∧
        RegisterEffect s s t
          { s.cpu with
            pc := if cond s.cpu.p then target else s.cpu.pc
            pending := s.cpu.pending + ((if cond s.cpu.p then cost else 2) - 1) }

end Sys2Proof.Machine

namespace Sys2Proof

open Sys2Proof.Machine

/-- The memory operand an instruction stores to (R179), if it has one. -/
def Instr.storeOperand : Instr → Option Addr
  | .sta d | .stx d | .sty d => some d
  | .inc d | .dec d | .asl (.mem d) | .lsr (.mem d) | .rol (.mem d) | .ror (.mem d) => some d.toAddr
  | _ => none

/-- The addresses an instruction stores to: its operand's effective address, or the stack slots it
pushes to (R236, R237, R317, R340). -/
def Instr.storedAt (i : Instr) (s : State) : List Word :=
  match i with
  | .pha | .php => [stackSlot s 0]
  | .jsr _ => [stackSlot s 0, stackSlot s 1]
  | .brk => [stackSlot s 0, stackSlot s 1, stackSlot s 2]
  | _ =>
    match i.storeOperand with
    | some d => [(resolve d s).ea]
    | none => []

/-- Whether an instruction's operand crosses a page (R168, R169, R171). -/
def Instr.operandCrosses (i : Instr) (s : State) : Bool :=
  match i with
  | .lda src | .ldx src | .ldy src | .adc src | .sbc src | .cmp src | .cpx src | .cpy src | .and src
  | .ora src | .eor src => (readSrc src s).crossed
  | _ => false

/-- Whether an instruction is a conditional branch (R300). -/
def Instr.isBranch : Instr → Bool
  | .bcc _ | .bcs _ | .beq _ | .bne _ | .bmi _ | .bpl _ | .bvc _ | .bvs _ => true
  | _ => false

/-- Whether an instruction may write the carry flag (R25). -/
def Instr.writesC : Instr → Bool
  | .adc _ | .sbc _ | .cmp _ | .cpx _ | .cpy _ | .asl _ | .lsr _ | .rol _ | .ror _ | .clc | .sec
  | .plp | .rti => true
  | _ => false

/-- Whether an instruction may write the zero and negative flags (R25). -/
def Instr.writesZN : Instr → Bool
  | .lda _ | .ldx _ | .ldy _ | .tax | .tay | .txa | .tya | .tsx | .pla | .adc _ | .sbc _ | .cmp _
  | .cpx _ | .cpy _ | .inc _ | .inx | .iny | .dec _ | .dex | .dey | .and _ | .ora _ | .eor _ | .bit _
  | .asl _ | .lsr _ | .rol _ | .ror _ | .plp | .rti => true
  | _ => false

/-- Whether an instruction may write the interrupt-inhibit flag (R25). -/
def Instr.writesI : Instr → Bool
  | .sei | .cli | .plp | .rti | .brk => true
  | _ => false

/-- Whether an instruction may write the decimal flag (R25). -/
def Instr.writesD : Instr → Bool
  | .sed | .cld | .plp | .rti => true
  | _ => false

/-- Whether an instruction may write the overflow flag (R25). -/
def Instr.writesV : Instr → Bool
  | .adc _ | .sbc _ | .bit _ | .clv | .plp | .rti => true
  | _ => false

/-- Whether an instruction may write A (R21). -/
def Instr.writesA : Instr → Bool
  | .lda _ | .txa | .tya | .pla | .adc _ | .sbc _ | .and _ | .ora _ | .eor _ | .asl .acc | .lsr .acc
  | .rol .acc | .ror .acc => true
  | _ => false

/-- Whether an instruction may write X (R21). -/
def Instr.writesX : Instr → Bool
  | .ldx _ | .tax | .tsx | .inx | .dex => true
  | _ => false

/-- Whether an instruction may write Y (R21). -/
def Instr.writesY : Instr → Bool
  | .ldy _ | .tay | .iny | .dey => true
  | _ => false

/-- Whether an instruction may write SP (R23): TXS, every push and every pull. -/
def Instr.writesSp : Instr → Bool
  | .txs | .pha | .php | .pla | .plp | .jsr _ | .rts | .brk | .rti => true
  | _ => false

/-- Whether an instruction is a control transfer, which writes PC whole (R22). -/
def Instr.writesPc : Instr → Bool
  | .bcc _ | .bcs _ | .beq _ | .bne _ | .bmi _ | .bpl _ | .bvc _ | .bvs _ | .jmp _ | .jsr _ | .rts
  | .brk | .rti => true
  | _ => false

end Sys2Proof

namespace Sys2Proof.Machine

/-- Every memory of the machine is in its canonical form and of its size (R100, R109, R114, R115,
R450). -/
def State.memoriesWf (s : State) : Bool :=
  Memory.wf 2048 s.bus.ram && Memory.wf 2048 s.bus.vram && Memory.wf 32 s.bus.palette &&
    Memory.wf 8192 s.bus.prgRam && Memory.wf 8192 s.mapper.chrRam && Memory.wf 256 s.video.oam

/-- The mapper id a variant belongs to (R115). -/
def MapperRegs.id : MapperRegs → Nat
  | .fixed => 0
  | .serial _ => 1
  | .prgSwitch _ => 2
  | .chrSwitch _ => 3

/-- The cartridge is one (R102), its mapper is the variant of its id, and "all bank pointers/indices
always resolve within the owning cartridge's ROM bounds" (R115). -/
def State.mapperOk (s : State) : Bool :=
  s.cart.valid && decide (s.mapper.regs.id = s.cart.mapperId) && s.mapper.regs.inBounds s.cart

/-- The Video Engine's position is one of the frame's (R451), and its selected sprites are at most 8
indices in ascending order (R450). -/
structure Video.Ok (d : Video) : Prop where
  scanline : d.scanline ≤ 261
  dot : d.dot ≤ 340
  stage : d.stage = stageOf d.scanline
  count : d.lineSprites.length ≤ 8
  order : d.lineSprites.Pairwise (· < ·)
  range : ∀ i ∈ d.lineSprites, i < 64

/-- The cycle of the frame sequencer's last step in a mode (R504). -/
def lastStepCycle (r : Region) (mode5 : Bool) : Nat := (frameStepCycles r).getD (if mode5 then 4 else 3) 0

/-- The Audio Engine's counters lie in their ranges (R500, R504, R508, R517, R522, R523, R542). -/
structure Audio.Ok (a : Audio) (r : Region) : Prop where
  cycle : a.frame.cycle ≤ lastStepCycle r a.frame.mode5
  pulse1 : a.pulse1.length ≤ 254
  pulse2 : a.pulse2.length ≤ 254
  triangle : a.triangle.length ≤ 254
  noise : a.noise.length ≤ 254
  lfsr : a.noise.lfsr ≠ 0
  startAddr : 0xC000 ≤ a.dmc.startAddr.toNat ∧ a.dmc.startAddr.toNat ≤ 0xFFC0
  startLen : 1 ≤ a.dmc.startLen.toNat ∧ a.dmc.startLen.toNat ≤ 4081
  curAddr : 0xC000 ≤ a.dmc.curAddr.toNat
  remaining : a.dmc.remaining ≤ 4081
  bitsLeft : 1 ≤ a.dmc.bitsLeft ∧ a.dmc.bitsLeft ≤ 8
  tapPos : a.tapPos < Config.firDecimation r

/-- Every divider counter is below its divider (R561). -/
structure Sched.Ok (c : Sched) (r : Region) : Prop where
  processor : c.divProcessor < divider r .processor
  video : c.divVideo < divider r .video
  audio : c.divAudio < divider r .audio

/-- The positions and counters of the three engines lie in their ranges. -/
structure State.EnginesOk (s : State) : Prop where
  video : s.video.Ok
  audio : s.audio.Ok s.cart.region
  sched : s.sched.Ok s.cart.region

/-- The maskable line's sources are the two audio interrupt flags (R406), MAPPER is never asserted
(R126), and a flag whose interrupt is disabled is clear (R505, R523). -/
structure State.LinesAgree (s : State) : Prop where
  frame : s.cpu.irq.frame = s.audio.frame.irqFlag
  dmc : s.cpu.irq.dmc = s.audio.dmc.irqFlag
  mapper : s.cpu.irq.mapper = false
  inhibited : s.audio.frame.irqInhibit = true → s.audio.frame.irqFlag = false
  disabled : s.audio.dmc.irqEn = false → s.audio.dmc.irqFlag = false

end Sys2Proof.Machine
end

