-- ==== Sys2Proof/Certificates/Slice0/Obligations.lean ====
section
/-! DEFINITION. The statements for the provers, one a `def Obligations.<Name> : Prop`; OBLIGATIONS.json
says which rules of the spec each formalises. -/

open Sys2Proof Sys2Proof.Machine

/-! ## Encoding -/

/-- Decoding an instruction's bytes gives the instruction back, with every operand at every value, and
leaves the bytes after it (R160, R177, R181). -/
def Obligations.DecodeInvertsEncode : Prop :=
  ∀ (i : Instr) (rest : List Byte), i.wf = true → decode (encode i ++ rest) = .ok (i, rest)

/-- Encoding what was decoded gives the bytes back, and only well-formed instructions are decoded (R160,
R181). No opcode byte is rejected (R177): with two bytes after it, every opcode decodes. The unrecognized
opcodes are the 105 values that the table of 151 does not hold, each an instruction of one byte (R182). -/
def Obligations.DecodingIsTotalAndFaithful : Prop :=
  (∀ (bytes : List Byte) (i : Instr) (rest : List Byte),
    decode bytes = .ok (i, rest) → i.wf = true ∧ encode i ++ rest = bytes) ∧
  opcodeTable.length = 151 ∧ unrecognizedOpcodes.length = 105 ∧ unrecognizedOpcodes.Nodup ∧
    ∀ (op b1 b2 : Byte) (rest : List Byte),
      (∃ i r, decode (op :: b1 :: b2 :: rest) = .ok (i, r)) ∧
        (op ∈ unrecognizedOpcodes ↔ opRow op = none) ∧
        (op ∈ unrecognizedOpcodes →
          decode (op :: b1 :: b2 :: rest) = .ok (.unrecognized op, b1 :: b2 :: rest))

/-- Words written out from the spec decode to the instructions they stand for: the examples of R184 and
of the family files. -/
def Obligations.SampleWordsDecode : Prop :=
  decode [0x18#8] = .ok (.clc, []) ∧
    decode [0x0A#8] = .ok (.asl .acc, []) ∧
    decode [0xA9#8, 0x10#8] = .ok (.lda (.imm 0x10#8), []) ∧
    decode [0xA5#8, 0x10#8] = .ok (.lda (.mem (.zp 0x10#8)), []) ∧
    decode [0xB5#8, 0x10#8] = .ok (.lda (.mem (.zpx 0x10#8)), []) ∧
    decode [0xB6#8, 0x10#8] = .ok (.ldx (.mem (.zpy 0x10#8)), []) ∧
    decode [0xAD#8, 0x34#8, 0x12#8] = .ok (.lda (.mem (.abs 0x1234#16)), []) ∧
    decode [0xBD#8, 0x34#8, 0x12#8] = .ok (.lda (.mem (.abx 0x1234#16)), []) ∧
    decode [0xB9#8, 0x34#8, 0x12#8] = .ok (.lda (.mem (.aby 0x1234#16)), []) ∧
    decode [0xA1#8, 0x10#8] = .ok (.lda (.mem (.izx 0x10#8)), []) ∧
    decode [0xB1#8, 0x10#8] = .ok (.lda (.mem (.izy 0x10#8)), []) ∧
    decode [0x6C#8, 0x34#8, 0x12#8] = .ok (.jmp (.ind 0x1234#16), []) ∧
    decode [0xD0#8, 0xFB#8] = .ok (.bne 0xFB#8, []) ∧
    decode [0x8D#8, 0x00#8, 0x02#8] = .ok (.sta (.abs 0x0200#16), []) ∧
    decode [0x96#8, 0x10#8] = .ok (.stx (.zpy 0x10#8), []) ∧
    decode [0x48#8] = .ok (.pha, []) ∧
    decode [0x69#8, 0x50#8] = .ok (.adc (.imm 0x50#8), []) ∧
    decode [0xE6#8, 0x10#8] = .ok (.inc (.zp 0x10#8), []) ∧
    decode [0x24#8, 0x10#8] = .ok (.bit (.zp 0x10#8), []) ∧
    decode [0x20#8, 0x00#8, 0x90#8] = .ok (.jsr 0x9000#16, []) ∧
    decode [0x00#8] = .ok (.brk, []) ∧
    decode [0x02#8] = .ok (.unrecognized 0x02#8, [])

/-! ## Fetching and stepping -/

/-- Fetching reads the instruction's bytes at PC and moves PC past them, wrapping (R22, R66): from plain
memory nothing else changes. From any address, what is fetched is what the first one, two or three of the
bytes that the bus answers at PC, PC + 1 and PC + 2 decode to, each read after the one before it with its
side effects; the state is that of these reads with PC moved by their number, so that no other register
and no memory changes. -/
def Obligations.FetchReadsInstructionBytes : Prop :=
  ∀ s : State,
    let r0 := busRead s s.cpu.pc
    let r1 := busRead r0.state (s.cpu.pc + 1)
    let r2 := busRead r1.state (s.cpu.pc + 2)
    (∀ (bytes : List Byte) (i : Instr), decode bytes = .ok (i, []) → BytesAt s bytes →
      fetchInstr s =
        { instr := i, state := s.setPc (s.cpu.pc + BitVec.ofNat 16 bytes.length) }) ∧
      ((decode [r0.value] = .ok ((fetchInstr s).instr, []) ∧
            (fetchInstr s).state = r0.state.setPc (s.cpu.pc + 1)) ∨
          (decode [r0.value, r1.value] = .ok ((fetchInstr s).instr, []) ∧
            (fetchInstr s).state = r1.state.setPc (s.cpu.pc + 2)) ∨
          (decode [r0.value, r1.value, r2.value] = .ok ((fetchInstr s).instr, []) ∧
            (fetchInstr s).state = r2.state.setPc (s.cpu.pc + 3))) ∧
        (fetchInstr s).state.cpu =
          { s.cpu with pc := (fetchInstr s).state.cpu.pc, irq := (fetchInstr s).state.cpu.irq } ∧
        MemoryKept s (fetchInstr s).state

/-- Where the bytes at PC decode to an instruction and the processor is due, with nothing pending and
no interrupt to take, its part of a tick is `exec` of that instruction with PC past its bytes, and its
divider is set (R400, R561). If it is first in ENGINE_ORDER, the step is that and then the others'
parts. -/
def Obligations.StepRunsDecodedInstruction : Prop :=
  ∀ (s : State) (bytes : List Byte) (i : Instr),
    decode bytes = .ok (i, []) → BytesAt s bytes → s.sched.divProcessor = 0 → s.cpu.pending = 0 →
      poll s.cpu = .instruction →
      let after (u : State) : State := u.setPc (u.cpu.pc + BitVec.ofNat 16 bytes.length)
      let reload (t : State) : State := setCounter .processor (divider s.cart.region .processor - 1) t
      tickEngine .processor s = andThen (exec i (after s)) (fun t => .next (reload t)) ∧
        ∀ others, orderOf s.params.engineOrder = .processor :: others →
          step s =
            andThen (exec i (after (s.setOut Output.none))) fun t => tickEngines others (reload t)

/-- A processor step (R400, R408): while cycles are pending it only counts one down; otherwise the NMI
latch comes first, then the maskable line if I is clear, and only if neither is to be taken one
instruction is fetched and run. -/
def Obligations.ProcessorStepOrder : Prop :=
  ∀ s : State,
    (0 < s.cpu.pending → processorStep s = .next (s.setPending (s.cpu.pending - 1))) ∧
      (s.cpu.pending = 0 → s.cpu.nmi = true →
        processorStep s = .next (charge (takeInterrupt .nmi (s.setNmi false)) 7)) ∧
      (s.cpu.pending = 0 → s.cpu.nmi = false →
        s.cpu.irq.frame = true ∨ s.cpu.irq.dmc = true ∨ s.cpu.irq.mapper = true →
        s.cpu.p.i = false → processorStep s = .next (charge (takeInterrupt .irq s) 7)) ∧
      (s.cpu.pending = 0 → s.cpu.nmi = false →
        (s.cpu.irq.frame = false ∧ s.cpu.irq.dmc = false ∧ s.cpu.irq.mapper = false) ∨
          s.cpu.p.i = true →
        processorStep s = exec (fetchInstr s).instr (fetchInstr s).state)

/-! ## Interrupts and the return from them -/

/-- The NMI and the IRQ sequence (R402, R404): PC and the flag byte with bit 4 clear are pushed, I is
set, PC comes from the vector, the cost is 7; an NMI consumes its latch; nothing else changes. -/
def Obligations.InterruptSequences : Prop :=
  ∀ s : State, s.cpu.pending = 0 →
    (s.cpu.nmi = true →
      ∃ t, processorStep s = .next t ∧
        t.cpu =
          { s.cpu with
            sp := s.cpu.sp - 3
            p := { s.cpu.p with i := true }
            pc := mkWord (busRead s 0xFFFB#16).value (busRead s 0xFFFA#16).value
            pending := 6
            nmi := false } ∧
        PushedFrame s t s.cpu.pc (s.cpu.p.pushed false)) ∧
      (s.cpu.nmi = false → s.cpu.irq.any = true → s.cpu.p.i = false →
        ∃ t, processorStep s = .next t ∧
          t.cpu =
            { s.cpu with
              sp := s.cpu.sp - 3
              p := { s.cpu.p with i := true }
              pc := mkWord (busRead s 0xFFFF#16).value (busRead s 0xFFFE#16).value
              pending := 6 } ∧
          PushedFrame s t s.cpu.pc (s.cpu.p.pushed false))

/-- BRK (R340): the byte after the opcode is skipped, PC and the flag byte with bit 4 set are pushed, I
is set, PC comes from the IRQ vector, the cost is 7. It is taken whatever I holds. An NMI pending when it
runs is the next thing taken; a maskable source waits, for I is set (R400, R403, R404: log entry 30 says
why R340's last sentence is read so). -/
def Obligations.BreakTakesTheInterrupt : Prop :=
  OneByte 0x00#8 .brk 7 ∧
    ∀ s : State, ∃ t, exec .brk s = .next t ∧
      t.cpu =
        { s.cpu with
          sp := s.cpu.sp - 3
          p := { s.cpu.p with i := true }
          pc := mkWord (busRead s 0xFFFF#16).value (busRead s 0xFFFE#16).value
          pending := s.cpu.pending + 6 } ∧
      PushedFrame s t (s.cpu.pc + 1) (s.cpu.p.pushed true) ∧
      poll t.cpu = if s.cpu.nmi then .nmi else .instruction

/-- RTI (R341): the flags come from the pulled byte's bits 7, 6, 3, 2, 1, 0, then PC, low byte first, with
nothing added. The next poll sees the restored I. -/
def Obligations.ReturnFromInterrupt : Prop :=
  OneByte 0x40#8 .rti 6 ∧
    ∀ s : State,
      let v := (busRead s (stackAddr (s.cpu.sp + 1))).value
      let lo := (busRead s (stackAddr (s.cpu.sp + 2))).value
      let hi := (busRead s (stackAddr (s.cpu.sp + 3))).value
      ∃ t, exec .rti s = .next t ∧
        RegisterEffect s s t
          { s.cpu with
            sp := s.cpu.sp + 3
            p :=
              { c := v.getLsbD 0, z := v.getLsbD 1, i := v.getLsbD 2, d := v.getLsbD 3
                v := v.getLsbD 6, n := v.getLsbD 7 }
            pc := mkWord hi lo
            pending := s.cpu.pending + 5 } ∧
        poll t.cpu =
          if s.cpu.nmi then .nmi
          else if s.cpu.irq.any = true ∧ v.getLsbD 2 = false then .irq
          else .instruction

/-! ## Results and frames of the instructions -/

/-- LDA, LDX and LDY (R221, R222, R223): the operand goes to the register and sets Z and N; no other
flag, register or byte changes. -/
def Obligations.LoadsFillTheRegister : Prop :=
  (AluEncodings .lda 0xA9#8 0xA5#8 0xB5#8 0xAD#8 0xBD#8 0xB9#8 0xA1#8 0xB1#8 ∧
      ReadEffect .lda fun c m => { c with a := m, p := c.p.withZN m }) ∧
    ((opRow 0xA2#8 = some ⟨0xA2#8, .f2 fun v => .ldx (.imm v), 2, false⟩ ∧
        opRow 0xA6#8 = some ⟨0xA6#8, .f2 fun a => .ldx (.mem (.zp a)), 3, false⟩ ∧
        opRow 0xB6#8 = some ⟨0xB6#8, .f2 fun a => .ldx (.mem (.zpy a)), 4, false⟩ ∧
        opRow 0xAE#8 = some ⟨0xAE#8, .f3 fun a => .ldx (.mem (.abs a)), 4, false⟩ ∧
        opRow 0xBE#8 = some ⟨0xBE#8, .f3 fun a => .ldx (.mem (.aby a)), 4, true⟩) ∧
      ReadEffect .ldx fun c m => { c with x := m, p := c.p.withZN m }) ∧
    ((opRow 0xA0#8 = some ⟨0xA0#8, .f2 fun v => .ldy (.imm v), 2, false⟩ ∧
        opRow 0xA4#8 = some ⟨0xA4#8, .f2 fun a => .ldy (.mem (.zp a)), 3, false⟩ ∧
        opRow 0xB4#8 = some ⟨0xB4#8, .f2 fun a => .ldy (.mem (.zpx a)), 4, false⟩ ∧
        opRow 0xAC#8 = some ⟨0xAC#8, .f3 fun a => .ldy (.mem (.abs a)), 4, false⟩ ∧
        opRow 0xBC#8 = some ⟨0xBC#8, .f3 fun a => .ldy (.mem (.abx a)), 4, true⟩) ∧
      ReadEffect .ldy fun c m => { c with y := m, p := c.p.withZN m })

/-- STA, STX and STY (R224, R225, R226): the register's byte is stored at the effective address; no flag
and no register changes, and no byte but the stored one. -/
def Obligations.StoresWriteTheByte : Prop :=
  ((opRow 0x85#8 = some ⟨0x85#8, .f2 fun a => .sta (.zp a), 3, false⟩ ∧
        opRow 0x95#8 = some ⟨0x95#8, .f2 fun a => .sta (.zpx a), 4, false⟩ ∧
        opRow 0x8D#8 = some ⟨0x8D#8, .f3 fun a => .sta (.abs a), 4, false⟩ ∧
        opRow 0x9D#8 = some ⟨0x9D#8, .f3 fun a => .sta (.abx a), 5, false⟩ ∧
        opRow 0x99#8 = some ⟨0x99#8, .f3 fun a => .sta (.aby a), 5, false⟩ ∧
        opRow 0x81#8 = some ⟨0x81#8, .f2 fun a => .sta (.izx a), 6, false⟩ ∧
        opRow 0x91#8 = some ⟨0x91#8, .f2 fun a => .sta (.izy a), 6, false⟩) ∧
      StoreClassEffect .sta fun c => c.a) ∧
    ((opRow 0x86#8 = some ⟨0x86#8, .f2 fun a => .stx (.zp a), 3, false⟩ ∧
        opRow 0x96#8 = some ⟨0x96#8, .f2 fun a => .stx (.zpy a), 4, false⟩ ∧
        opRow 0x8E#8 = some ⟨0x8E#8, .f3 fun a => .stx (.abs a), 4, false⟩) ∧
      StoreClassEffect .stx fun c => c.x) ∧
    ((opRow 0x84#8 = some ⟨0x84#8, .f2 fun a => .sty (.zp a), 3, false⟩ ∧
        opRow 0x94#8 = some ⟨0x94#8, .f2 fun a => .sty (.zpx a), 4, false⟩ ∧
        opRow 0x8C#8 = some ⟨0x8C#8, .f3 fun a => .sty (.abs a), 4, false⟩) ∧
      StoreClassEffect .sty fun c => c.y)

/-- TAX, TAY, TXA, TYA, TSX set Z and N of the byte they move; TXS moves X to SP and leaves the flags
alone (R230 to R235). -/
def Obligations.TransfersMoveARegister : Prop :=
  ImpliedEffect 0xAA#8 .tax 2 (fun c => { c with x := c.a, p := c.p.withZN c.a }) ∧
    ImpliedEffect 0xA8#8 .tay 2 (fun c => { c with y := c.a, p := c.p.withZN c.a }) ∧
    ImpliedEffect 0x8A#8 .txa 2 (fun c => { c with a := c.x, p := c.p.withZN c.x }) ∧
    ImpliedEffect 0x98#8 .tya 2 (fun c => { c with a := c.y, p := c.p.withZN c.y }) ∧
    ImpliedEffect 0xBA#8 .tsx 2 (fun c => { c with x := c.sp, p := c.p.withZN c.sp }) ∧
    ImpliedEffect 0x9A#8 .txs 2 (fun c => { c with sp := c.x })

/-- PHA and PHP store a byte at the stack slot and move SP down, PHP the flag byte with bits 5 and 4
set; PLA and PLP move SP up and read it, PLA setting Z and N, PLP loading six flags (R236 to R239). SP
wraps. The poll after a PLP sees the new I. -/
def Obligations.PushesAndPulls : Prop :=
  (OneByte 0x48#8 .pha 3 ∧
      ∀ s : State, ∃ t, exec .pha s = .next t ∧
        StoreEffect s s t (stackAddr s.cpu.sp) s.cpu.a
          { s.cpu with sp := s.cpu.sp - 1, pending := s.cpu.pending + 2 }) ∧
    (OneByte 0x08#8 .php 3 ∧
      ∀ s : State, ∃ t, exec .php s = .next t ∧
        StoreEffect s s t (stackAddr s.cpu.sp) (s.cpu.p.pushed true)
          { s.cpu with sp := s.cpu.sp - 1, pending := s.cpu.pending + 2 }) ∧
    (OneByte 0x68#8 .pla 4 ∧
      ∀ s : State,
        let v := (busRead s (stackAddr (s.cpu.sp + 1))).value
        ∃ t, exec .pla s = .next t ∧
          RegisterEffect s s t
            { s.cpu with
              a := v, sp := s.cpu.sp + 1, p := s.cpu.p.withZN v, pending := s.cpu.pending + 3 }) ∧
    (OneByte 0x28#8 .plp 4 ∧
      ∀ s : State,
        let v := (busRead s (stackAddr (s.cpu.sp + 1))).value
        ∃ t, exec .plp s = .next t ∧
          RegisterEffect s s t
            { s.cpu with
              sp := s.cpu.sp + 1
              p :=
                { c := v.getLsbD 0, z := v.getLsbD 1, i := v.getLsbD 2, d := v.getLsbD 3
                  v := v.getLsbD 6, n := v.getLsbD 7 }
              pending := s.cpu.pending + 3 } ∧
          poll t.cpu =
            if s.cpu.nmi then .nmi
            else if s.cpu.irq.any = true ∧ v.getLsbD 2 = false then .irq
            else .instruction)

/-- ADC (R250): A becomes the sum of A, the operand and the carry; C is the carry out. SBC (R251): A becomes
A less the operand less the borrow, the complement of the carry; C is 1 when there is no borrow. V is
signed overflow (R255). Neither reads D. -/
def Obligations.AddAndSubtract : Prop :=
  (AluEncodings .adc 0x69#8 0x65#8 0x75#8 0x6D#8 0x7D#8 0x79#8 0x61#8 0x71#8 ∧
    ReadEffect .adc fun c m =>
      let carry := if c.p.c then 1 else 0
      let sum := c.a.toNat + m.toNat + carry
      let signed : Int := c.a.toInt + m.toInt + carry
      let r := BitVec.ofNat 8 sum
      { c with
        a := r
        p :=
          Flags.withZN
            { c.p with c := decide (255 < sum), v := decide (signed < -128 ∨ 127 < signed) } r }) ∧
  AluEncodings .sbc 0xE9#8 0xE5#8 0xF5#8 0xED#8 0xFD#8 0xF9#8 0xE1#8 0xF1#8 ∧
    ReadEffect .sbc fun c m =>
      let borrow := if c.p.c then 0 else 1
      let signed : Int := c.a.toInt - m.toInt - borrow
      let r := BitVec.ofInt 8 (c.a.toNat - m.toNat - borrow)
      { c with
        a := r
        p :=
          Flags.withZN
            { c.p with
              c := decide (m.toNat + borrow ≤ c.a.toNat)
              v := decide (signed < -128 ∨ 127 < signed) }
            r }

/-- CMP, CPX and CPY (R252, R253, R254, R256): C is the unsigned order, Z equality, N bit 7 of the 8-bit
difference; no register changes. -/
def Obligations.ComparesSetFlags : Prop :=
  let after (get : Cpu → Byte) (c : Cpu) (m : Byte) : Cpu :=
    { c with
      p :=
        { c.p with
          c := decide (m.toNat ≤ (get c).toNat)
          z := decide ((get c).toNat = m.toNat)
          n := decide (128 ≤ ((get c).toNat + 256 - m.toNat) % 256) } }
  (AluEncodings .cmp 0xC9#8 0xC5#8 0xD5#8 0xCD#8 0xDD#8 0xD9#8 0xC1#8 0xD1#8 ∧
      ReadEffect .cmp (after fun c => c.a)) ∧
    ((opRow 0xE0#8 = some ⟨0xE0#8, .f2 fun v => .cpx (.imm v), 2, false⟩ ∧
        opRow 0xE4#8 = some ⟨0xE4#8, .f2 fun a => .cpx (.mem (.zp a)), 3, false⟩ ∧
        opRow 0xEC#8 = some ⟨0xEC#8, .f3 fun a => .cpx (.mem (.abs a)), 4, false⟩) ∧
      ReadEffect .cpx (after fun c => c.x)) ∧
    ((opRow 0xC0#8 = some ⟨0xC0#8, .f2 fun v => .cpy (.imm v), 2, false⟩ ∧
        opRow 0xC4#8 = some ⟨0xC4#8, .f2 fun a => .cpy (.mem (.zp a)), 3, false⟩ ∧
        opRow 0xCC#8 = some ⟨0xCC#8, .f3 fun a => .cpy (.mem (.abs a)), 4, false⟩) ∧
      ReadEffect .cpy (after fun c => c.y))

/-- INC and DEC step the byte at the effective address, INX, INY, DEX and DEY a register, each by one
modulo 256 and setting Z and N; none writes C or V (R265 to R270). -/
def Obligations.IncrementsAndDecrements : Prop :=
  (RmwEncodings .inc 0xE6#8 0xF6#8 0xEE#8 0xFE#8 ∧
      ModifyEffect .inc (fun _ m => (m + 1) % 256) fun p _ v => p.withZN v) ∧
    (RmwEncodings .dec 0xC6#8 0xD6#8 0xCE#8 0xDE#8 ∧
      ModifyEffect .dec (fun _ m => (m + 255) % 256) fun p _ v => p.withZN v) ∧
    ImpliedEffect 0xE8#8 .inx 2 (fun c => { c with x := c.x + 1, p := c.p.withZN (c.x + 1) }) ∧
    ImpliedEffect 0xC8#8 .iny 2 (fun c => { c with y := c.y + 1, p := c.p.withZN (c.y + 1) }) ∧
    ImpliedEffect 0xCA#8 .dex 2 (fun c => { c with x := c.x - 1, p := c.p.withZN (c.x - 1) }) ∧
    ImpliedEffect 0x88#8 .dey 2 (fun c => { c with y := c.y - 1, p := c.p.withZN (c.y - 1) })

/-- AND, ORA and EOR put a bitwise result in A and set Z and N; BIT writes Z, N and V only, N and V from
the operand itself (R280 to R283). -/
def Obligations.LogicalOperations : Prop :=
  (AluEncodings .and 0x29#8 0x25#8 0x35#8 0x2D#8 0x3D#8 0x39#8 0x21#8 0x31#8 ∧
      ReadEffect .and fun c m => { c with a := c.a &&& m, p := c.p.withZN (c.a &&& m) }) ∧
    (AluEncodings .ora 0x09#8 0x05#8 0x15#8 0x0D#8 0x1D#8 0x19#8 0x01#8 0x11#8 ∧
      ReadEffect .ora fun c m => { c with a := c.a ||| m, p := c.p.withZN (c.a ||| m) }) ∧
    (AluEncodings .eor 0x49#8 0x45#8 0x55#8 0x4D#8 0x5D#8 0x59#8 0x41#8 0x51#8 ∧
      ReadEffect .eor fun c m => { c with a := c.a ^^^ m, p := c.p.withZN (c.a ^^^ m) }) ∧
    ((opRow 0x24#8 = some ⟨0x24#8, .f2 fun a => .bit (.zp a), 3, false⟩ ∧
        opRow 0x2C#8 = some ⟨0x2C#8, .f3 fun a => .bit (.abs a), 4, false⟩) ∧
      ∀ (src : Addr) (s : State),
        let o := readMem src s
        ∃ t, exec (.bit src) s = .next t ∧
          RegisterEffect s o.state t
            { s.cpu with
              p :=
                { s.cpu.p with
                  z := decide ((s.cpu.a &&& o.value).toNat = 0)
                  n := decide (128 ≤ o.value.toNat)
                  v := decide (64 ≤ o.value.toNat % 128) }
              irq := o.state.cpu.irq
              pending := s.cpu.pending + (memReadCost src o.crossed - 1) })

/-- ASL, LSR, ROL and ROR of the accumulator and of memory (R290 to R293): one bit position, the bit
shifted out goes to C, the old carry enters a rotate; V does not change. -/
def Obligations.ShiftsAndRotates : Prop :=
  let carry (p : Flags) : Nat := if p.c then 1 else 0
  (RmwEncodings (fun m => .asl (.mem m)) 0x06#8 0x16#8 0x0E#8 0x1E#8 ∧
      ShiftEffect 0x0A#8 .asl (fun _ m => 2 * m % 256) fun m => decide (128 ≤ m)) ∧
    (RmwEncodings (fun m => .lsr (.mem m)) 0x46#8 0x56#8 0x4E#8 0x5E#8 ∧
      ShiftEffect 0x4A#8 .lsr (fun _ m => m / 2) fun m => decide (m % 2 = 1)) ∧
    (RmwEncodings (fun m => .rol (.mem m)) 0x26#8 0x36#8 0x2E#8 0x3E#8 ∧
      ShiftEffect 0x2A#8 .rol (fun p m => 2 * m % 256 + carry p) fun m => decide (128 ≤ m)) ∧
    (RmwEncodings (fun m => .ror (.mem m)) 0x66#8 0x76#8 0x6E#8 0x7E#8 ∧
      ShiftEffect 0x6A#8 .ror (fun p m => m / 2 + 128 * carry p) fun m => decide (m % 2 = 1))

/-- The eight conditional branches (R300 to R308). -/
def Obligations.BranchesTestOneFlag : Prop :=
  BranchEffect 0x90#8 .bcc (fun p => !p.c) ∧
    BranchEffect 0xB0#8 .bcs (fun p => p.c) ∧
    BranchEffect 0xF0#8 .beq (fun p => p.z) ∧
    BranchEffect 0xD0#8 .bne (fun p => !p.z) ∧
    BranchEffect 0x30#8 .bmi (fun p => p.n) ∧
    BranchEffect 0x10#8 .bpl (fun p => !p.n) ∧
    BranchEffect 0x50#8 .bvc (fun p => !p.v) ∧
    BranchEffect 0x70#8 .bvs (fun p => p.v)

/-- JMP (R315): to the address, or to the word at the pointer, whose high byte is read from the same
page as its low byte (R172). -/
def Obligations.JumpGoesToTheTarget : Prop :=
  (opRow 0x4C#8 = some ⟨0x4C#8, .f3 fun a => .jmp (.abs a), 3, false⟩ ∧
      opRow 0x6C#8 = some ⟨0x6C#8, .f3 fun a => .jmp (.ind a), 5, false⟩) ∧
    (∀ (a : Word) (s : State), ∃ t, exec (.jmp (.abs a)) s = .next t ∧
      RegisterEffect s s t { s.cpu with pc := a, pending := s.cpu.pending + 2 }) ∧
    ∀ (p : Word) (s : State),
      let l := busRead s p
      let h := busRead l.state (BitVec.ofNat 16 (p.toNat / 256 * 256 + (p.toNat + 1) % 256))
      ∃ t, exec (.jmp (.ind p)) s = .next t ∧
        RegisterEffect s h.state t
          { s.cpu with
            pc := BitVec.ofNat 16 (h.value.toNat * 256 + l.value.toNat)
            irq := h.state.cpu.irq
            pending := s.cpu.pending + 4 }

/-- JSR pushes the address of its own last byte, high byte first, and goes to the target; RTS pulls an
address, low byte first, and goes to the one after it (R317, R318). -/
def Obligations.CallsAndReturns : Prop :=
  (opRow 0x20#8 = some ⟨0x20#8, .f3 .jsr, 6, false⟩ ∧
      ∀ (target : Word) (s : State), ∃ t, exec (.jsr target) s = .next t ∧
        t.cpu =
          { s.cpu with pc := target, sp := s.cpu.sp - 2, pending := s.cpu.pending + 5 } ∧
        (busRead t (stackSlot s 0)).value = hiByte (s.cpu.pc - 1) ∧
        (busRead t (stackSlot s 1)).value = loByte (s.cpu.pc - 1) ∧
        (∀ addr, storeTouches (stackSlot s 0) addr = false →
          storeTouches (stackSlot s 1) addr = false → ByteKept s t addr) ∧
        OnlyRamOutside s t) ∧
    (OneByte 0x60#8 .rts 6 ∧
      ∀ s : State,
        let lo := (busRead s (stackAddr (s.cpu.sp + 1))).value
        let hi := (busRead s (stackAddr (s.cpu.sp + 2))).value
        ∃ t, exec .rts s = .next t ∧
          RegisterEffect s s t
            { s.cpu with
              pc := BitVec.ofNat 16 (hi.toNat * 256 + lo.toNat + 1)
              sp := s.cpu.sp + 2
              pending := s.cpu.pending + 5 })

/-- The seven flag instructions write exactly one flag each (R325 to R331). The poll after a CLI or an SEI
sees the new I; D shows in bit 3 of a pushed flag byte, and no addition or subtraction reads it. -/
def Obligations.FlagInstructionsWriteOneFlag : Prop :=
  ImpliedEffect 0x18#8 .clc 2 (fun c => { c with p := { c.p with c := false } }) ∧
    ImpliedEffect 0x38#8 .sec 2 (fun c => { c with p := { c.p with c := true } }) ∧
    ImpliedEffect 0x58#8 .cli 2 (fun c => { c with p := { c.p with i := false } }) ∧
    ImpliedEffect 0x78#8 .sei 2 (fun c => { c with p := { c.p with i := true } }) ∧
    ImpliedEffect 0xB8#8 .clv 2 (fun c => { c with p := { c.p with v := false } }) ∧
    ImpliedEffect 0xD8#8 .cld 2 (fun c => { c with p := { c.p with d := false } }) ∧
    ImpliedEffect 0xF8#8 .sed 2 (fun c => { c with p := { c.p with d := true } }) ∧
    (∀ s t : State,
      (exec .cli s = .next t →
          poll t.cpu =
            if s.cpu.nmi then .nmi else if s.cpu.irq.any then .irq else .instruction) ∧
        (exec .sei s = .next t → poll t.cpu = if s.cpu.nmi then .nmi else .instruction)) ∧
    ∀ (p : Flags) (b d : Bool) (a m : Byte),
      (p.pushed b).getLsbD 3 = p.d ∧
        addCarry { p with d := d } a m =
          { value := (addCarry p a m).value, flags := { (addCarry p a m).flags with d := d } } ∧
        subBorrow { p with d := d } a m =
          { value := (subBorrow p a m).value, flags := { (subBorrow p a m).flags with d := d } }

/-- NOP takes two cycles and an unrecognized opcode one; neither changes anything else (R342, R343). -/
def Obligations.NoOperations : Prop :=
  ImpliedEffect 0xEA#8 .nop 2 (fun c => c) ∧
    ∀ op : Byte, op ∈ unrecognizedOpcodes →
      (∀ rest, decode (op :: rest) = .ok (.unrecognized op, rest)) ∧
        ∀ s : State, ∃ t, exec (.unrecognized op) s = .next t ∧ RegisterEffect s s t s.cpu

/-! ## Whole-machine rules about the instructions -/

/-- The effective address of every mode, the page crossing, and the one read of an operand (R163 to R171,
R174). Pointers are read in page zero, which has no read effect. -/
def Obligations.AddressingModes : Prop :=
  ∀ (s : State) (a : Byte) (w : Word),
    let page0 (n : Nat) : Word := BitVec.ofNat 16 (n % 256)
    let ptr (n : Nat) : Word :=
      BitVec.ofNat 16
        ((busRead s (page0 (n + 1))).value.toNat * 256 + (busRead s (page0 n)).value.toNat)
    let plus (base : Word) (index : Byte) : Resolved :=
      { ea := BitVec.ofNat 16 (base.toNat + index.toNat)
        crossed := decide ((base.toNat + index.toNat) % 65536 / 256 ≠ base.toNat / 256)
        state := s }
    resolve (.zp a) s = { ea := page0 a.toNat, crossed := false, state := s } ∧
      resolve (.zpx a) s = { ea := page0 (a.toNat + s.cpu.x.toNat), crossed := false, state := s } ∧
      resolve (.zpy a) s = { ea := page0 (a.toNat + s.cpu.y.toNat), crossed := false, state := s } ∧
      resolve (.abs w) s = { ea := w, crossed := false, state := s } ∧
      resolve (.abx w) s = plus w s.cpu.x ∧
      resolve (.aby w) s = plus w s.cpu.y ∧
      resolve (.izx a) s = { ea := ptr (a.toNat + s.cpu.x.toNat), crossed := false, state := s } ∧
      resolve (.izy a) s = plus (ptr a.toNat) s.cpu.y ∧
      readSrc (.imm a) s = { value := a, crossed := false, state := s } ∧
      ∀ m : Addr,
        readSrc (.mem m) s =
          { value := (busRead s (resolve m s).ea).value
            crossed := (resolve m s).crossed
            state := (busRead s (resolve m s).ea).state }

/-- Every instruction but a branch costs what its opcode's row of the table says, one more if the row
has the page-cross penalty and the operand crosses, and a store to the sprite DMA trigger the stall
(R127, R175, R180, R181). -/
def Obligations.EveryInstructionCostsItsRow : Prop :=
  ∀ (op : Byte) (bytes rest : List Byte) (i : Instr) (s t : State),
    decode (op :: bytes) = .ok (i, rest) → i.isBranch = false → exec i s = .next t →
      let stall : Nat :=
        match i.storeOperand with
        | some d => storeStall s (resolve d s).ea
        | none => 0
      t.cpu.pending + 1 =
        s.cpu.pending + stall + baseCycles op +
          (if hasPenalty op && i.operandCrosses s then 1 else 0)

/-- Only the instructions the spec lists write a register or a flag: every other leaves it unchanged
(R21, R22, R23, R25). -/
def Obligations.OnlyListedInstructionsWrite : Prop :=
  ∀ (i : Instr) (s t : State), exec i s = .next t →
    (i.writesA = false → t.cpu.a = s.cpu.a) ∧
      (i.writesX = false → t.cpu.x = s.cpu.x) ∧
      (i.writesY = false → t.cpu.y = s.cpu.y) ∧
      (i.writesSp = false → t.cpu.sp = s.cpu.sp) ∧
      (i.writesPc = false → t.cpu.pc = s.cpu.pc) ∧
      (i.writesC = false → t.cpu.p.c = s.cpu.p.c) ∧
      (i.writesZN = false → t.cpu.p.z = s.cpu.p.z ∧ t.cpu.p.n = s.cpu.p.n) ∧
      (i.writesI = false → t.cpu.p.i = s.cpu.p.i) ∧
      (i.writesD = false → t.cpu.p.d = s.cpu.p.d) ∧
      (i.writesV = false → t.cpu.p.v = s.cpu.p.v) ∧
      t.cpu.nmi = s.cpu.nmi

/-- No instruction changes a byte of plain memory other than those it stores to: its operand's effective
address, or the stack slots it pushes to (R73). -/
def Obligations.EveryInstructionMemoryFrame : Prop :=
  ∀ (i : Instr) (s t : State) (addr : Word), exec i s = .next t →
    (∀ ea ∈ i.storedAt s, storeTouches ea addr = false) → ByteKept s t addr

/-- What was saved comes back: JSR then RTS returns to the instruction after the JSR; BRK then RTI restores
every flag and returns to the address of the BRK plus 2; PHA then PLA restores A; PHP then PLP restores
the flags, which is how bits 5 and 4 of the pushed byte do not matter (R23, R26, R236 to R239, R317, R318, R340, R341).
SP is where it was. -/
def Obligations.SavedStateComesBack : Prop :=
  (∀ (target : Word) (s t u : State), exec (.jsr target) s = .next t → exec .rts t = .next u →
      u.cpu.pc = s.cpu.pc ∧ u.cpu.sp = s.cpu.sp ∧ u.cpu.p = s.cpu.p) ∧
    (∀ s t u : State, exec .brk s = .next t → exec .rti t = .next u →
      u.cpu.pc = s.cpu.pc + 1 ∧ u.cpu.sp = s.cpu.sp ∧ u.cpu.p = s.cpu.p) ∧
    (∀ (s t u : State) (v : Byte), exec .pha s = .next t → exec .pla (t.setA v) = .next u →
      u.cpu.a = s.cpu.a ∧ u.cpu.sp = s.cpu.sp) ∧
    (∀ (s t u : State) (p : Flags), exec .php s = .next t → exec .plp (t.setP p) = .next u →
      u.cpu.p = s.cpu.p ∧ u.cpu.sp = s.cpu.sp) ∧
    (∀ (p : Flags) (b : Bool),
      let v := p.pushed b
      v.getLsbD 5 = true ∧ v.getLsbD 4 = b ∧ Flags.pulled v = p) ∧
    ∀ v : Byte, Flags.pulled (v ^^^ 0x10#8) = Flags.pulled v ∧ Flags.pulled (v ^^^ 0x20#8) = Flags.pulled v

/-- Nothing stops the machine but the DMC reader's refusal (R401, R525): every instruction completes in
every state, so does every step of the processor, and a tick is refused only for a sample that would
run past 0xFFFF. When that refusal comes is the model's choice (log entry 14). -/
def Obligations.OnlyTheSampleReaderStops : Prop :=
  (∀ (i : Instr) (s : State), ∃ t, exec i s = .next t) ∧
    (∀ s : State, ∃ t, processorStep s = .next t) ∧
    ∀ (s : State) (r : Refusal), step s = .refused r →
      ∃ addr remaining, r = .dmcSamplePastEnd addr remaining ∧ 0x10000 < addr.toNat + remaining

/-! ## The bus -/

/-- Work RAM (R105): a read returns the byte last written, through any of the four mirrors, and has no
side effect; a write of one cell leaves every other alone. -/
def Obligations.WorkRamMirrors : Prop :=
  ∀ (s : State) (addr other : Word) (v : Byte), addr.toNat < 0x2000 → other.toNat < 0x2000 →
    (busRead (busWrite s addr v) other).value =
        (if addr.toNat % 2048 = other.toNat % 2048 then v else (busRead s other).value) ∧
      (busRead s other).state = s

/-- The save-RAM window (R109): the placeholder without a battery, a fresh free byte if disabled, memory
otherwise; a write lands only if the RAM is there, enabled and not protected. Reads that find no device,
and registers that cannot be read, return the one placeholder byte and change nothing; writes to the gap
and to the read-only status register are ignored (R106, R107, R108). -/
def Obligations.SaveRamAndUnmappedAddresses : Prop :=
  (∀ (s : State) (addr other : Word) (v : Byte),
    (0x6000 ≤ addr.toNat ∧ addr.toNat < 0x8000) → (0x6000 ≤ other.toNat ∧ other.toNat < 0x8000) →
    (s.cart.battery = false →
        busRead s other = { value := Config.unmappedReadByte, state := s } ∧ busWrite s addr v = s) ∧
      (s.cart.battery = true → s.params.prgRamEnabled = false →
        busRead s other =
            { value := Config.openBusByte s.draws, state := s.setDraws (s.draws + 1) } ∧
          busWrite s addr v = s) ∧
      (s.cart.battery = true → s.params.prgRamEnabled = true →
        s.params.prgRamWriteProtected = true → busWrite s addr v = s) ∧
      (s.cart.battery = true → s.params.prgRamEnabled = true →
        (busRead s other).state = s ∧
          (s.params.prgRamWriteProtected = false →
            (busRead (busWrite s addr v) other).value =
              if addr = other then v else (busRead s other).value))) ∧
  ∀ (s : State) (addr : Word) (v : Byte),
    (0x4018 ≤ addr.toNat ∧ addr.toNat < 0x6000 →
        busRead s addr = { value := Config.unmappedReadByte, state := s } ∧ busWrite s addr v = s) ∧
      (0x4000 ≤ addr.toNat ∧ addr.toNat ≤ 0x4014 →
        busRead s addr = { value := Config.unmappedReadByte, state := s }) ∧
      (0x2000 ≤ addr.toNat ∧ addr.toNat < 0x4000 →
        (addr.toNat % 8 = 1 ∨ addr.toNat % 8 = 3 ∨ addr.toNat % 8 = 5 ∨ addr.toNat % 8 = 6 →
            busRead s addr = { value := Config.unmappedReadByte, state := s }) ∧
          (addr.toNat % 8 = 2 → busWrite s addr v = s))

/-- A read changes a device only at the addresses the spec lists, and never a register of the processor
or a byte of memory; the maskable line can change only by a read of 0x4015 (R65). -/
def Obligations.ReadsChangeOnlyListedDevices : Prop :=
  ∀ (s : State) (addr : Word),
    let video : Prop := 0x2000 ≤ addr.toNat ∧ addr.toNat < 0x4000
    let listed : Prop :=
      (video ∧ (addr.toNat % 8 = 2 ∨ addr.toNat % 8 = 7)) ∨ addr = 0x4015#16 ∨ addr = 0x4016#16 ∨
        addr = 0x4017#16 ∨
        (0x6000 ≤ addr.toNat ∧ addr.toNat < 0x8000 ∧ s.cart.battery = true ∧
          s.params.prgRamEnabled = false)
    (¬listed → (busRead s addr).state = s) ∧
      (addr ≠ 0x4015#16 → (busRead s addr).state.cpu = s.cpu) ∧
      (busRead s addr).state.cpu =
        { s.cpu with irq := (busRead s addr).state.cpu.irq } ∧
      (busRead s addr).state.cart = s.cart ∧ (busRead s addr).state.params = s.params ∧
      MemoryKept s (busRead s addr).state

/-- A write changes no register of the processor and not the cartridge: only the maskable line, and the
pending counter if it starts the sprite DMA; and no byte of memory other than the one stored to
(R104). -/
def Obligations.WritesChangeOnlyTheirTarget : Prop :=
  ∀ (s : State) (addr : Word) (v : Byte),
    (busWrite s addr v).cpu =
        { s.cpu with
          irq := (busWrite s addr v).cpu.irq
          pending := s.cpu.pending + storeStall s addr } ∧
      (busWrite s addr v).cart = s.cart ∧ (busWrite s addr v).params = s.params ∧
      (busWrite s addr v).sched = s.sched ∧ (busWrite s addr v).out = s.out ∧
      StoreFrame addr s (busWrite s addr v)

/-- Sprite DMA (R127): 256 bytes of a page go to sprite memory from the OAM address on, wrapping; the OAM
address is unchanged and the processor stalled. What the bytes are is said of a page in plain memory,
whose reads have no effect. -/
def Obligations.SpriteDmaCopiesAPage : Prop :=
  ∀ (s : State) (page : Byte),
    let t := busWrite s 0x4014#16 page
    t.video.oamAddr = s.video.oamAddr ∧ t.cpu.pending = s.cpu.pending + s.params.oamDmaStall ∧
      ((∀ i : Byte, plainMemory s (mkWord page i) = true) →
        ∀ i : Byte,
          Memory.read t.video.oam (s.video.oamAddr + i).toNat = (busRead s (mkWord page i)).value)

/-! ## The mapper -/

/-- The serial mapper (R118, R119): five writes with bit 7 clear shift in five bits, first bit lowest, and
the address of the fifth chooses the register that takes them; a write with bit 7 set clears the shift
register and sets both program-mode bits of the control register. -/
def Obligations.SerialMapperCommits : Prop :=
  (∀ (s : State) (r : SerialRegs) (a0 a1 a2 a3 a4 : Word) (v0 v1 v2 v3 v4 : Byte),
      s.mapper.regs = .serial r → r.shift = 0 → r.count = 0 →
      (0x8000 ≤ a0.toNat ∧ 0x8000 ≤ a1.toNat ∧ 0x8000 ≤ a2.toNat ∧ 0x8000 ≤ a3.toNat ∧
        0x8000 ≤ a4.toNat) →
      (v0.toNat < 128 ∧ v1.toNat < 128 ∧ v2.toNat < 128 ∧ v3.toNat < 128 ∧ v4.toNat < 128) →
      let t := busWrite (busWrite (busWrite (busWrite (busWrite s a0 v0) a1 v1) a2 v2) a3 v3) a4 v4
      let n :=
        v0.toNat % 2 + 2 * (v1.toNat % 2) + 4 * (v2.toNat % 2) + 8 * (v3.toNat % 2) +
          16 * (v4.toNat % 2)
      let mirror : Mirroring :=
        if n % 4 = 0 then .singleLow
        else if n % 4 = 1 then .singleHigh
        else if n % 4 = 2 then .vertical
        else .horizontal
      (a4.toNat < 0xA000 →
          t.mapper.regs = .serial { r with control := BitVec.ofNat 5 n } ∧ t.bus.mirroring = mirror) ∧
        (0xA000 ≤ a4.toNat → a4.toNat < 0xC000 →
          t.mapper.regs = .serial { r with chr0 := BitVec.ofNat 5 n } ∧
            t.bus.mirroring = s.bus.mirroring) ∧
        (0xC000 ≤ a4.toNat → a4.toNat < 0xE000 →
          t.mapper.regs = .serial { r with chr1 := BitVec.ofNat 5 n } ∧
            t.bus.mirroring = s.bus.mirroring) ∧
        (0xE000 ≤ a4.toNat →
          t.mapper.regs = .serial { r with prgSel := BitVec.ofNat 5 n } ∧
            t.bus.mirroring = s.bus.mirroring)) ∧
    ∀ (s : State) (r : SerialRegs) (addr : Word) (v : Byte),
      s.mapper.regs = .serial r → 0x8000 ≤ addr.toNat → 128 ≤ v.toNat →
      (busWrite s addr v).mapper.regs =
          .serial { r with shift := 0, count := 0, control := r.control ||| 0x0C#5 } ∧
        (busWrite s addr v).bus.mirroring = s.bus.mirroring

/-- The program ROM byte each mapper variant answers with (R116, R120, R123, R124), the bank a write
selects in variants (c) and (d), and that with one program bank the two halves of the window read
alike. -/
def Obligations.ProgramBanks : Prop :=
  ∀ (s : State) (addr : Word) (v : Byte), 0x8000 ≤ addr.toNat →
    let n := s.cart.prgBanks
    let off := addr.toNat % 16384
    let hi := addr.toNat / 16384 % 2
    let rom (k : Nat) : Byte := Memory.read s.cart.prg k
    (busRead s addr).state = s ∧
      (s.mapper.regs = .fixed ∨ (∃ b, s.mapper.regs = .chrSwitch b) →
        (busRead s addr).value = rom ((addr.toNat - 0x8000) % (n * 16384))) ∧
      (s.mapper.regs = .fixed → n = 1 → addr.toNat < 0xC000 →
        (busRead s (addr + 0x4000#16)).value = (busRead s addr).value) ∧
      (s.mapper.regs = .fixed → busWrite s addr v = s) ∧
      (∀ b, s.mapper.regs = .prgSwitch b →
        (busRead s addr).value =
            rom (if addr.toNat < 0xC000 then b * 16384 + off else (n - 1) * 16384 + off) ∧
          (busWrite s addr v).mapper.regs = .prgSwitch (v.toNat % n)) ∧
      (∀ b, s.mapper.regs = .chrSwitch b →
        (busWrite s addr v).mapper.regs =
          .chrSwitch (if s.cart.chrBanks = 0 then 0 else v.toNat % s.cart.chrBanks)) ∧
      ∀ r, s.mapper.regs = .serial r →
        let b := r.prgSel.toNat % 16
        let mode := r.control.toNat / 4 % 4
        let bank : Nat :=
          if mode ≤ 1 then (b / 2 * 2 + hi) % n
          else if mode = 2 then (if hi = 0 then 0 else b % n)
          else (if hi = 0 then b % n else n - 1)
        (busRead s addr).value = rom (bank * 16384 + off)

/-- Every byte the mapper answers with lies inside the cartridge's ROM, or inside character RAM (R115). -/
def Obligations.BankPointersStayInBounds : Prop :=
  ∀ s : State, s.mapperOk = true →
    (∀ addr : Word, 0x8000 ≤ addr.toNat →
        prgIndex s.cart s.mapper.regs addr < s.cart.prgBanks * 16384) ∧
      ∀ a : BitVec 13,
        chrIndex s.cart s.mapper.regs a <
          if s.cart.chrBanks = 0 then 8192 else s.cart.chrBanks * 8192

/-! ## The Video Engine -/

/-- The nametable and palette windows (R113, R114): a byte written is read back through every address of
the same cell, and every other address of the video space reads as before; the cell depends on the
mirroring mode, and palette index 0x10 is index 0. The graphics byte each mapper variant answers with; a
write of the pattern window does nothing with graphics ROM, and without it the byte is read back through
every address of the same cell of character RAM, and every other address reads as before (R115, R116,
R121, R124). A write changes the one memory its window names and nothing else of the machine. What a
store to register 7 does is this write (VideoDataRegister). -/
def Obligations.VideoAddressSpace : Prop :=
  (∀ (s : State) (a b : BitVec 14) (v : Byte),
    let cell (x : Nat) : Nat :=
      let bank : Nat :=
        match s.bus.mirroring with
        | .horizontal => x / 2048 % 2
        | .vertical => x / 1024 % 2
        | .singleLow => 0
        | .singleHigh => 1
      bank * 1024 + x % 1024
    let colour (x : Nat) : Nat := if x % 32 = 16 then 0 else x % 32
    let nametable (x : BitVec 14) : Prop := 0x2000 ≤ x.toNat ∧ x.toNat < 0x3F00
    (nametable a →
        (nametable b →
            videoRead (videoWrite s a v) b =
              if cell a.toNat = cell b.toNat then v else videoRead s b) ∧
          (¬nametable b → videoRead (videoWrite s a v) b = videoRead s b) ∧
          videoWrite s a v = s.setBus { s.bus with vram := (videoWrite s a v).bus.vram }) ∧
      (0x3F00 ≤ a.toNat →
        (0x3F00 ≤ b.toNat →
            videoRead (videoWrite s a v) b =
              if colour a.toNat = colour b.toNat then v else videoRead s b) ∧
          (b.toNat < 0x3F00 → videoRead (videoWrite s a v) b = videoRead s b) ∧
          videoWrite s a v = s.setBus { s.bus with palette := (videoWrite s a v).bus.palette })) ∧
  ∀ (s : State) (a b : BitVec 14) (v : Byte), a.toNat < 0x2000 →
    let ram : Bool := decide (s.cart.chrBanks = 0)
    let chr (k : Nat) : Byte := Memory.read (if ram then s.mapper.chrRam else s.cart.chr) k
    /- The cell of character RAM behind an address: two banks of 4 KB (R121). -/
    let ramCell (x : Nat) : Nat :=
      match s.mapper.regs with
      | .serial r =>
        let hi := x / 4096
        let bank4 : Nat :=
          if r.control.toNat / 16 = 0 then hi
          else (if hi = 0 then r.chr0.toNat else r.chr1.toNat) % 2
        bank4 * 4096 + x % 4096
      | _ => x
    (s.mapper.regs = .fixed ∨ (∃ b, s.mapper.regs = .prgSwitch b) →
        videoRead s a = chr a.toNat) ∧
      (∀ b, s.mapper.regs = .chrSwitch b →
        videoRead s a = chr (if ram then a.toNat else b * 8192 + a.toNat)) ∧
      (∀ r, s.mapper.regs = .serial r →
        let m := if ram then 2 else 2 * s.cart.chrBanks
        let hi := a.toNat / 4096
        let bank4 : Nat :=
          if r.control.toNat / 16 = 0 then (r.chr0.toNat / 2 * 2 + hi) % m
          else if hi = 0 then r.chr0.toNat % m
          else r.chr1.toNat % m
        videoRead s a = chr (bank4 * 4096 + a.toNat % 4096)) ∧
      (ram = false → videoWrite s a v = s) ∧
      (ram = true →
        (b.toNat < 0x2000 →
            videoRead (videoWrite s a v) b =
              if ramCell a.toNat = ramCell b.toNat then v else videoRead s b) ∧
          (0x2000 ≤ b.toNat → videoRead (videoWrite s a v) b = videoRead s b) ∧
          videoWrite s a v = s.setMapper { s.mapper with chrRam := (videoWrite s a v).mapper.chrRam })

/-- The control register reads back the byte last written, through every mirror, with no side effect, and
copies its two low bits to the temporary address; a status read reports vertical blank and sprite-zero
hit, clears vertical blank and the write toggle, and leaves the NMI latch alone (R452, R455). A write of
register 1 sets the mask and nothing else, and it cannot be read (R453). A write
through register 4 lands in sprite memory at the OAM address and moves it on, a read does not move it,
register 3 sets it (R456). -/
def Obligations.VideoControlStatusAndSpriteMemory : Prop :=
  (∀ (s : State) (addr other : Word) (v : Byte),
    (0x2000 ≤ addr.toNat ∧ addr.toNat < 0x4000) → (0x2000 ≤ other.toNat ∧ other.toNat < 0x4000) →
    (addr.toNat % 8 = 0 → other.toNat % 8 = 0 →
        busRead (busWrite s addr v) other = { value := v, state := busWrite s addr v } ∧
          (busWrite s addr v).video.t.toNat =
            s.video.t.toNat % 1024 + v.toNat % 4 * 1024 + s.video.t.toNat / 4096 * 4096 ∧
          (busWrite s addr v).cpu = s.cpu) ∧
      (addr.toNat % 8 = 2 →
        busRead s addr =
          { value :=
              BitVec.ofNat 8
                ((if s.video.vblank then 128 else 0) + (if s.video.sprite0Hit then 64 else 0))
            state := s.setVideo { s.video with vblank := false, w := false } } ∧
          busWrite s addr v = s)) ∧
  ∀ (s : State) (addr : Word) (v : Byte) (n : Byte), 0x2000 ≤ addr.toNat → addr.toNat < 0x4000 →
    (addr.toNat % 8 = 1 →
        busWrite s addr v = s.setVideo { s.video with mask := v } ∧
          busRead s addr = { value := Config.unmappedReadByte, state := s }) ∧
    (addr.toNat % 8 = 3 →
        (busWrite s addr v).video = { s.video with oamAddr := v } ∧
          busRead s addr = { value := Config.unmappedReadByte, state := s }) ∧
      (addr.toNat % 8 = 4 →
        busRead s addr =
            { value := Memory.read s.video.oam s.video.oamAddr.toNat, state := s } ∧
          (busWrite s addr v).video.oamAddr = s.video.oamAddr + 1 ∧
          Memory.read (busWrite s addr v).video.oam n.toNat =
            if n = s.video.oamAddr then v else Memory.read s.video.oam n.toNat)

/-- The scroll and VRAM address registers take two writes, told apart by the write toggle they share, and
nothing else changes; neither can be read (R458, R459, R460). -/
def Obligations.TwoWriteRegisters : Prop :=
  ∀ (s : State) (addr : Word) (v : Byte), 0x2000 ≤ addr.toNat → addr.toNat < 0x4000 →
    let d := s.video
    let d' := (busWrite s addr v).video
    let t := d.t.toNat
    (addr.toNat % 8 = 5 → d.w = false →
        d'.t.toNat = t / 32 * 32 + v.toNat / 8 ∧ d'.fineX.toNat = v.toNat % 8 ∧ d'.w = true ∧
          d'.v = d.v) ∧
      (addr.toNat % 8 = 5 → d.w = true →
        d'.t.toNat =
            v.toNat % 8 * 4096 + t / 1024 % 4 * 1024 + v.toNat / 8 * 32 + t % 32 ∧
          d'.fineX = d.fineX ∧ d'.w = false ∧ d'.v = d.v) ∧
      (addr.toNat % 8 = 6 → d.w = false →
        d'.t.toNat = v.toNat % 64 * 256 + t % 256 ∧ d'.w = true ∧ d'.v = d.v) ∧
      (addr.toNat % 8 = 6 → d.w = true →
        d'.t.toNat = t / 256 * 256 + v.toNat ∧ d'.v = d'.t ∧ d'.w = false) ∧
      (addr.toNat % 8 = 6 → d'.fineX = d.fineX) ∧
      (addr.toNat % 8 = 5 ∨ addr.toNat % 8 = 6 →
        busWrite s addr v =
            s.setVideo { d with t := d'.t, v := d'.v, fineX := d'.fineX, w := d'.w } ∧
          busRead s addr = { value := Config.unmappedReadByte, state := s })

/-- The VRAM data register (R461, R462): each access moves the current address by 1 or 32, a read below
the palette returns the byte of the read before it, a palette read is immediate and leaves the buffer
alone. -/
def Obligations.VideoDataRegister : Prop :=
  ∀ (s : State) (addr : Word) (v : Byte), 0x2000 ≤ addr.toNat → addr.toNat < 0x4000 →
    addr.toNat % 8 = 7 →
    let a : BitVec 14 := BitVec.ofNat 14 s.video.v.toNat
    let inc := if s.video.ctrl.toNat / 4 % 2 = 1 then 32 else 1
    let v' : BitVec 15 := BitVec.ofNat 15 (s.video.v.toNat + inc)
    (a.toNat < 0x3F00 →
        busRead s addr =
          { value := s.video.readBuffer
            state := s.setVideo { s.video with v := v', readBuffer := videoRead s a } }) ∧
      (0x3F00 ≤ a.toNat →
        busRead s addr =
          { value := videoRead s a, state := s.setVideo { s.video with v := v' } }) ∧
      busWrite s addr v = (videoWrite s a v).setVideo { s.video with v := v' }

/-- Sprite selection (R467): the list is at most 8 indices, ascending, each of a sprite that covers the
line, and no covering sprite is left out but when 8 lower ones are in. The Video Engine selects so at
the last dot of a render scanline. -/
def Obligations.SpriteSelectionTakesTheLowestEight : Prop :=
  ∀ (d : Video) (line : Nat),
    let h := if d.ctrl.toNat / 32 % 2 = 1 then 16 else 8
    let covers (i : Nat) : Prop :=
      (Memory.read d.oam (4 * i)).toNat ≤ line ∧ line < (Memory.read d.oam (4 * i)).toNat + h
    let sel := selectSprites d line
    sel.length ≤ 8 ∧ sel.Pairwise (· < ·) ∧ (∀ i ∈ sel, i < 64 ∧ covers i) ∧
      (∀ j, j < 64 → covers j → j ∉ sel → sel.length = 8 ∧ ∀ i ∈ sel, i < j) ∧
      ∀ s : State, s.video = d → d.stage = .render → d.scanline = line → d.dot = 340 →
        (videoStep s).video.lineSprites = sel

/-- The position after one dot (R463, R464, R451): 341 dots a scanline, 340 on the pre-render line of an
odd frame with rendering enabled; 262 scanlines; the odd-frame flag toggles at the end of scanline
260 (R470); the selected sprites are dropped at the end of the pre-render line and change elsewhere only
at the end of a render line (R464, R467). The redraw signal is given at the end of the post-render line
and nowhere else (R471). The current VRAM address changes only so (R464, R465): at a visible dot of the
tile's last column, with the background shown, coarse X moves one tile right, from 31 into the other
nametable; with rendering enabled, at dot 257 of a render line Y moves one row down with its wraps, the
horizontal fields are copied from the temporary address at dot 258 of a render line and at dot 257 of the
pre-render line, and the vertical fields at dots 280 to 304 of the pre-render line. -/
def Obligations.DotAndScanlineAdvance : Prop :=
  ∀ s : State, s.video.Ok →
    let d := s.video
    let d' := (videoStep s).video
    let rendering := d.mask.toNat / 8 % 4 ≠ 0
    let short := d.scanline = 261 ∧ d.oddFrame = true ∧ rendering
    (d.dot < 339 ∨ (d.dot = 339 ∧ ¬short) →
        d'.dot = d.dot + 1 ∧ d'.scanline = d.scanline ∧ d'.stage = d.stage ∧
          d'.oddFrame = d.oddFrame) ∧
      (d.dot = 340 ∨ (d.dot = 339 ∧ short) →
        d'.dot = 0 ∧ d'.scanline = (d.scanline + 1) % 262 ∧ d'.stage = stageOf d'.scanline ∧
          d'.oddFrame = if d.scanline = 260 then !d.oddFrame else d.oddFrame) ∧
      d'.ctrl = d.ctrl ∧ d'.mask = d.mask ∧ d'.oam = d.oam ∧ d'.oamAddr = d.oamAddr ∧ d'.t = d.t ∧
      d'.fineX = d.fineX ∧ d'.w = d.w ∧ d'.readBuffer = d.readBuffer ∧
      (d.scanline = 261 → d.dot = 340 ∨ (d.dot = 339 ∧ short) → d'.lineSprites = []) ∧
      (d.dot < 339 ∨ (d.dot = 339 ∧ ¬short) ∨ (240 ≤ d.scanline ∧ d.scanline ≤ 260) →
        d'.lineSprites = d.lineSprites) ∧
      (videoStep s).out.redraw = (s.out.redraw || decide (d.scanline = 240 ∧ d.dot = 340)) ∧
      let v := d.v.toNat
      let t := d.t.toNat
      let coarseX := v % 32
      let coarseY := v / 32 % 32
      let nametable := v / 1024 % 4
      let fineY := v / 4096
      let address (x y n f : Nat) : Nat := x + 32 * y + 1024 * n + 4096 * f
      let visible := d.scanline < 240 ∧ 1 ≤ d.dot ∧ d.dot ≤ 256
      let background := d.mask.toNat / 8 % 2 = 1
      d'.v.toNat =
        if visible ∧ background ∧ (d.fineX.toNat + (d.dot - 1)) % 8 = 7 then
          if coarseX = 31 then address 0 coarseY (nametable ^^^ 1) fineY
          else address (coarseX + 1) coarseY nametable fineY
        else if d.scanline < 240 ∧ d.dot = 257 ∧ rendering then
          if fineY < 7 then address coarseX coarseY nametable (fineY + 1)
          else if coarseY = 29 then address coarseX 0 (nametable ^^^ 2) 0
          else if coarseY = 31 then address coarseX 0 nametable 0
          else address coarseX (coarseY + 1) nametable 0
        else if
            rendering ∧
              ((d.scanline < 240 ∧ d.dot = 258) ∨ (d.scanline = 261 ∧ d.dot = 257)) then
          address (t % 32) coarseY (nametable / 2 * 2 + t / 1024 % 2) fineY
        else if rendering ∧ d.scanline = 261 ∧ 280 ≤ d.dot ∧ d.dot ≤ 304 then
          address coarseX (t / 32 % 32) (t / 2048 % 2 * 2 + nametable % 2) (t / 4096)
        else v

/-- The vertical-blank flag and the NMI are raised at scanline 241, dot 1, the NMI only if control bit 7
is set; the flags are cleared at dot 1 of the pre-render line, and at no other dot does the engine
touch vertical blank. It changes nothing else of the processor, the bus memories, the mapper or the
Audio Engine (R407, R464, R470). -/
def Obligations.VerticalBlankRaisesNmi : Prop :=
  ∀ s : State, s.video.Ok →
    let d := s.video
    let t := videoStep s
    let point := d.scanline = 241 ∧ d.dot = 1
    t.cpu =
        { s.cpu with nmi := s.cpu.nmi || (decide point && decide (128 ≤ d.ctrl.toNat)) } ∧
      t.video.vblank =
        (if point then true else if d.scanline = 261 ∧ d.dot = 1 then false else d.vblank) ∧
      (d.scanline = 261 ∧ d.dot = 1 → t.video.sprite0Hit = false) ∧
      t.bus = s.bus ∧ t.mapper = s.mapper ∧ t.audio = s.audio ∧ t.sched = s.sched

/-- The pixel of a visible dot and the sprite-zero-hit flag (R465, R466, R468, R469). The background colour
comes from the tile, pattern and attribute bytes at the current address; the sprite colour is that of
the first selected sprite with an opaque pixel there, looked at only if sprites are shown; an opaque
sprite wins over a transparent background, and over an opaque one if it is in front; the colour byte is
read from the palette and grayscale applied. The flag is set when the winning sprite is entry 0 over an
opaque background with both enables set, stays set till dot 1 of the pre-render line, and no other dot
gives a pixel or touches it. Stated where every selected sprite still covers the line: what a row outside
a sprite shows is the model's (log entry 16). -/
def Obligations.VisibleDotShowsPixel : Prop :=
  ∀ s : State, s.video.Ok →
    let d := s.video
    let t := videoStep s
    let x := d.dot - 1
    let y := d.scanline
    let visible := y < 240 ∧ 1 ≤ d.dot ∧ d.dot ≤ 256
    let bit (b : Byte) (k : Nat) : Nat := b.toNat / 2 ^ k % 2
    let byteAt (n : Nat) : Byte := videoRead s (BitVec.ofNat 14 n)
    let pattern (n col : Nat) : Nat := 2 * bit (byteAt (n + 8)) col + bit (byteAt n) col
    let oam (i k : Nat) : Byte := Memory.read d.oam (4 * i + k)
    let height := if bit d.ctrl 5 = 1 then 16 else 8
    (visible →
        ∀ i ∈ d.lineSprites, (oam i 0).toNat + 1 ≤ y ∧ y < (oam i 0).toNat + 1 + height) →
      let v := d.v.toNat
      let bg : Nat :=
        if bit d.mask 3 = 1 ∧ (bit d.mask 1 = 1 ∨ 8 ≤ x) then
          let tile := (byteAt (0x2000 + v % 4096)).toNat
          let colour :=
            pattern (bit d.ctrl 4 * 4096 + tile * 16 + v / 4096) (7 - (d.fineX.toNat + x) % 8)
          let palettes :=
            (byteAt (0x23C0 + v / 1024 % 4 * 1024 + v / 128 % 8 * 8 + v / 4 % 8)).toNat
          if colour = 0 then 0
          else palettes / 2 ^ (v / 64 % 2 * 4 + v / 2 % 2 * 2) % 4 * 4 + colour
        else 0
      let spriteColour (i : Nat) : Nat :=
        let left := (oam i 3).toNat
        let row :=
          let r := y - 1 - (oam i 0).toNat
          if bit (oam i 2) 7 = 1 then height - 1 - r else r
        let col := if bit (oam i 2) 6 = 1 then x - left else 7 - (x - left)
        let tile := (oam i 1).toNat
        if left ≤ x ∧ x < left + 8 then
          pattern
            (if height = 8 then bit d.ctrl 3 * 4096 + tile * 16 + row
              else tile % 2 * 4096 + tile / 2 * 2 * 16 + (if 8 ≤ row then row + 8 else row))
            col
        else 0
      let winner : Option Nat :=
        if bit d.mask 4 = 1 ∧ (bit d.mask 2 = 1 ∨ 8 ≤ x) then
          d.lineSprites.find? fun i => decide (spriteColour i ≠ 0)
        else none
      let index : Nat :=
        match winner with
        | none => bg
        | some i =>
          if bg = 0 ∨ bit (oam i 2) 5 = 0 then 16 + (oam i 2).toNat % 4 * 4 + spriteColour i else bg
      let colour := (byteAt (0x3F00 + index)).toNat
      let shown := if bit d.mask 0 = 1 then colour / 16 % 4 * 16 else colour % 64
      let hit := visible ∧ winner = some 0 ∧ bg ≠ 0 ∧ bit d.mask 3 = 1 ∧ bit d.mask 4 = 1
      t.out.pixel =
          (if visible then some { x := x, y := y, rgba := Config.paletteRgba (BitVec.ofNat 6 shown) }
            else s.out.pixel) ∧
        t.video.sprite0Hit =
          (if d.scanline = 261 ∧ d.dot = 1 then false else d.sprite0Hit || decide hit) ∧
        t.out.sample = s.out.sample ∧ t.draws = s.draws

/-! ## Controllers -/

/-- The controller protocol (R129, R130): a falling strobe captures the buttons, the next eight reads
return them first button first, later reads the exhausted bit; while the strobe is high a read returns
the first button's state at that moment and shifts nothing. The buttons are free inputs: this holds for
every value. -/
def Obligations.ControllersShiftOutButtons : Prop :=
  ∀ (s : State) (v : Byte),
    let read0 (u : State) : State := (busRead u 0x4016#16).state
    let read1 (u : State) : State := (busRead u 0x4017#16).state
    let captured := busWrite s 0x4016#16 v
    let exhausted := if Config.controllerExhaustedBit then 1 else 0
    let reads (buttons : Byte) (k : Nat) : Byte :=
      BitVec.ofNat 8 (64 + if k < 8 then buttons.toNat / 2 ^ k % 2 else exhausted)
    (s.bus.strobe = true → v.toNat % 2 = 0 → ∀ k,
        (busRead (Nat.iterate read0 k captured) 0x4016#16).value =
            reads (Config.buttons 0 s.draws) k ∧
          (busRead (Nat.iterate read1 k captured) 0x4017#16).value =
            reads (Config.buttons 1 s.draws) k) ∧
      (s.bus.strobe = true →
        (busRead s 0x4016#16).value = reads (Config.buttons 0 s.draws) 0 ∧
          (busRead s 0x4017#16).value = reads (Config.buttons 1 s.draws) 0 ∧
          (busRead s 0x4016#16).state.bus = s.bus ∧ (busRead s 0x4017#16).state.bus = s.bus) ∧
      (s.bus.strobe = true → v.toNat % 2 = 0 →
        captured.bus =
          { s.bus with
            strobe := false, pad0 := Config.buttons 0 s.draws, pad1 := Config.buttons 1 s.draws }) ∧
      (s.bus.strobe = false ∨ v.toNat % 2 = 1 →
        captured.bus = { s.bus with strobe := decide (v.toNat % 2 = 1) }) ∧
      (s.bus.strobe = false →
        busRead s 0x4016#16 =
            { value := BitVec.ofNat 8 (64 + s.bus.pad0.toNat % 2)
              state :=
                s.setBus
                  { s.bus with pad0 := BitVec.ofNat 8 (s.bus.pad0.toNat / 2 + 128 * exhausted) } } ∧
          busRead s 0x4017#16 =
            { value := BitVec.ofNat 8 (64 + s.bus.pad1.toNat % 2)
              state :=
                s.setBus
                  { s.bus with pad1 := BitVec.ofNat 8 (s.bus.pad1.toNat / 2 + 128 * exhausted) } })

/-! ## The Audio Engine -/

/-- The registers of the five channels (R508, R510, R516, R519, R523), each with all it does: duty, halt,
envelope and sweep fields; the timer period in two parts; a length loaded from the table only while the
channel is enabled; the restart flags. A sample starts at 0xC000 plus 64 for each unit and has 16 bytes
for each unit and one more; disabling the DMC interrupt releases its source. No write changes anything
else of the machine. -/
def Obligations.AudioRegisterWrites : Prop :=
  ∀ (s : State) (v : Byte),
    let table : List Nat :=
      [10, 254, 20, 2, 40, 4, 80, 6, 160, 8, 60, 10, 14, 12, 26, 14, 12, 16, 24, 18, 48, 20, 96, 22,
       192, 24, 72, 26, 16, 28, 32, 30]
    let n := v.toNat
    let flag (k : Nat) : Bool := decide (n / 2 ^ k % 2 = 1)
    let loaded (enabled : Bool) (old : Nat) : Nat := if enabled then table.getD (n / 8) 0 else old
    let low (period : BitVec 11) : BitVec 11 := BitVec.ofNat 11 (period.toNat / 256 * 256 + n)
    let high (period : BitVec 11) : BitVec 11 := BitVec.ofNat 11 (n % 8 * 256 + period.toNat % 256)
    let volume (e : Envelope) : Envelope := { e with constVol := flag 4, vol := BitVec.ofNat 4 n }
    let restart (e : Envelope) : Envelope := { e with start := true }
    let pulse (p : Pulse) (offset : Nat) : Pulse :=
      if offset = 0 then
        { p with duty := BitVec.ofNat 2 (n / 64), halt := flag 5, env := volume p.env }
      else if offset = 1 then
        { p with
          swEn := flag 7, swPeriod := BitVec.ofNat 3 (n / 16), swNeg := flag 3
          swShift := BitVec.ofNat 3 n, swReload := true }
      else if offset = 2 then { p with period := low p.period }
      else
        { p with
          period := high p.period, length := loaded p.enabled p.length, seq := 0
          env := restart p.env }
    let a := s.audio
    let w (addr : Word) : State := busWrite s addr v
    (w 0x4000#16 = s.setAudio { a with pulse1 := pulse a.pulse1 0 } ∧
        w 0x4001#16 = s.setAudio { a with pulse1 := pulse a.pulse1 1 } ∧
        w 0x4002#16 = s.setAudio { a with pulse1 := pulse a.pulse1 2 } ∧
        w 0x4003#16 = s.setAudio { a with pulse1 := pulse a.pulse1 3 }) ∧
      (w 0x4004#16 = s.setAudio { a with pulse2 := pulse a.pulse2 0 } ∧
        w 0x4005#16 = s.setAudio { a with pulse2 := pulse a.pulse2 1 } ∧
        w 0x4006#16 = s.setAudio { a with pulse2 := pulse a.pulse2 2 } ∧
        w 0x4007#16 = s.setAudio { a with pulse2 := pulse a.pulse2 3 }) ∧
      (w 0x4008#16 =
          s.setAudio
            { a with
              triangle := { a.triangle with control := flag 7, linReloadVal := BitVec.ofNat 7 n } } ∧
        w 0x4009#16 = s ∧
        w 0x400A#16 =
          s.setAudio { a with triangle := { a.triangle with period := low a.triangle.period } } ∧
        w 0x400B#16 =
          s.setAudio
            { a with
              triangle :=
                { a.triangle with
                  period := high a.triangle.period
                  length := loaded a.triangle.enabled a.triangle.length, linReload := true } }) ∧
      (w 0x400C#16 =
          s.setAudio { a with noise := { a.noise with halt := flag 5, env := volume a.noise.env } } ∧
        w 0x400D#16 = s ∧
        w 0x400E#16 =
          s.setAudio
            { a with noise := { a.noise with mode := flag 7, periodIdx := BitVec.ofNat 4 n } } ∧
        w 0x400F#16 =
          s.setAudio
            { a with
              noise :=
                { a.noise with
                  length := loaded a.noise.enabled a.noise.length, env := restart a.noise.env } }) ∧
      w 0x4010#16 =
          (s.setAudio
            { a with
              dmc :=
                { a.dmc with
                  irqEn := flag 7, loop := flag 6, rateIdx := BitVec.ofNat 4 n
                  irqFlag := flag 7 && a.dmc.irqFlag } }).setIrq
            { s.cpu.irq with dmc := flag 7 && s.cpu.irq.dmc } ∧
        w 0x4011#16 = s.setAudio { a with dmc := { a.dmc with level := BitVec.ofNat 7 n } } ∧
        w 0x4012#16 =
          s.setAudio { a with dmc := { a.dmc with startAddr := BitVec.ofNat 16 (0xC000 + n * 64) } } ∧
        w 0x4013#16 =
          s.setAudio { a with dmc := { a.dmc with startLen := BitVec.ofNat 12 (n * 16 + 1) } }

/-- The audio status register (R539, R540): a read reports both interrupt flags as they were and which
lengths are not 0, clears both flags and releases both sources; a write enables channels, forces the
lengths of the others to 0, restarts a finished sample, and acknowledges the DMC interrupt. -/
def Obligations.AudioStatusRegister : Prop :=
  ∀ (s : State) (v : Byte),
    let a := s.audio
    let r := busRead s 0x4015#16
    let t := busWrite s 0x4015#16 v
    let on (b : Bool) (n : Nat) : Nat := if b then n else 0
    let enabled (k : Nat) : Bool := decide (v.toNat / 2 ^ k % 2 = 1)
    r.value =
        BitVec.ofNat 8
          (on a.dmc.irqFlag 128 + on a.frame.irqFlag 64 + on (decide (0 < a.dmc.remaining)) 16 +
            on (decide (0 < a.noise.length)) 8 + on (decide (0 < a.triangle.length)) 4 +
            on (decide (0 < a.pulse2.length)) 2 + on (decide (0 < a.pulse1.length)) 1) ∧
      r.state.audio =
        { a with
          frame := { a.frame with irqFlag := false }
          dmc := { a.dmc with irqFlag := false } } ∧
      r.state.cpu = { s.cpu with irq := { s.cpu.irq with frame := false, dmc := false } } ∧
      r.state.bus = s.bus ∧ r.state.video = s.video ∧ r.state.mapper = s.mapper ∧
      t.audio =
        { a with
          pulse1 :=
            { a.pulse1 with enabled := enabled 0, length := on (enabled 0) a.pulse1.length }
          pulse2 :=
            { a.pulse2 with enabled := enabled 1, length := on (enabled 1) a.pulse2.length }
          triangle :=
            { a.triangle with enabled := enabled 2, length := on (enabled 2) a.triangle.length }
          noise := { a.noise with enabled := enabled 3, length := on (enabled 3) a.noise.length }
          dmc :=
            { a.dmc with
              irqFlag := false
              remaining :=
                if enabled 4 then
                  (if a.dmc.remaining = 0 then a.dmc.startLen.toNat else a.dmc.remaining)
                else 0
              curAddr :=
                if enabled 4 && decide (a.dmc.remaining = 0) then a.dmc.startAddr
                else a.dmc.curAddr } } ∧
      t.cpu = { s.cpu with irq := { s.cpu.irq with dmc := false } }

/-- The frame sequencer (R504, R505). Its steps come at the cycles of R504's table for the region: steps 1
and 3 clock the quarter-frame units, step 2 the quarter and half-frame units, and the mode's last step
both, raises the frame interrupt in both modes unless it is inhibited, and starts the sequence again. At
every other cycle the sequencer only counts on. A step of the Audio Engine answers this of the state its
timers and its sample reader leave (R501). A write of the control register sets the mode and the inhibit
bit, starts the sequence, with the inhibit bit releases the source, and with bit 7 set clocks both at
once. -/
def Obligations.FrameSequencerInterrupts : Prop :=
  let stepCycle (r : Region) (k : Nat) : Nat :=
    (match r with
      | .ntsc => [7457, 14913, 22371, 29829, 37281]
      | .pal => [8313, 16627, 24939, 33253, 41565]).getD (k - 1) 0
  (∀ s t : State, audioStep s = .next t →
      let f := s.audio.frame
      let at_ (k : Nat) : Prop := f.cycle = stepCycle s.cart.region k
      let last : Prop := if f.mode5 then at_ 5 else at_ 4
      ∃ u, dmcReader (s.setAudio (clockTimers s.audio s.cart.region)) = .next u ∧
        let raised : Bool := decide last && !f.irqInhibit
        let clocked : Audio :=
          if at_ 2 ∨ last then halfClock (quarterClock u.audio)
          else if at_ 1 ∨ at_ 3 then quarterClock u.audio
          else u.audio
        t.audio =
            { clocked with
              frame :=
                { f with
                  cycle := if last then 0 else f.cycle + 1
                  irqFlag := u.audio.frame.irqFlag || raised }
              tapPos := t.audio.tapPos
              acc := t.audio.acc } ∧
          t.cpu =
            { u.cpu with irq := { u.cpu.irq with frame := u.cpu.irq.frame || raised } } ∧
          t.bus = u.bus ∧ t.video = u.video ∧ t.mapper = u.mapper ∧
          (0x8000 ≤ s.audio.dmc.curAddr.toNat →
            t.audio.frame.irqFlag = (f.irqFlag || raised) ∧
              t.cpu.irq.frame = (s.cpu.irq.frame || raised))) ∧
    ∀ (s : State) (v : Byte),
      let t := busWrite s 0x4017#16 v
      let inhibit : Bool := decide (v.toNat / 64 % 2 = 1)
      t.audio.frame =
          { cycle := 0, mode5 := decide (128 ≤ v.toNat), irqInhibit := inhibit
            irqFlag := !inhibit && s.audio.frame.irqFlag } ∧
        t.cpu = { s.cpu with irq := { s.cpu.irq with frame := !inhibit && s.cpu.irq.frame } } ∧
        (v.toNat < 128 → t.audio = { s.audio with frame := t.audio.frame }) ∧
        (128 ≤ v.toNat →
          t.audio = halfClock (quarterClock { s.audio with frame := t.audio.frame }))

/-- The two clocks (R503): a quarter clock drives the three envelopes and the linear counter, a half clock
the four length counters and the two sweeps, and neither anything else. Of the units (R506, R507, R509,
R514): an envelope restarts at 15 or decays, a length
counter stops at 0, the linear counter reloads or counts down, and a muted or unshifted sweep leaves the
period alone. The timers (R501, R511, R515, R517, R521): the triangle's runs every step, the others' every
second; a timer at 0 reloads and moves its unit on, else it counts down. The noise shift register's feedback bit is the exclusive or of bit 0 and bit 1, or bit 6 in
mode 1, and enters at bit 14 (R517); the DMC level moves by 2 a bit and stays between 0 and 127 (R522). -/
def Obligations.AudioUnitClocks : Prop :=
  (∀ a : Audio,
      let envelope (e : Envelope) (halt : Bool) : Envelope := e.clock halt
      let half (p : Pulse) (first : Bool) : Pulse :=
        { p.clockSweep first with length := clockLength p.halt p.length }
      quarterClock a =
          { a with
            pulse1 := { a.pulse1 with env := envelope a.pulse1.env a.pulse1.halt }
            pulse2 := { a.pulse2 with env := envelope a.pulse2.env a.pulse2.halt }
            noise := { a.noise with env := envelope a.noise.env a.noise.halt }
            triangle := a.triangle.clockLinear } ∧
        halfClock a =
          { a with
            pulse1 := half a.pulse1 true
            pulse2 := half a.pulse2 false
            triangle :=
              { a.triangle with length := clockLength a.triangle.control a.triangle.length }
            noise := { a.noise with length := clockLength a.noise.halt a.noise.length } }) ∧
  (∀ (a : Audio) (r : Region),
      let noiseTimes : List Nat :=
        match r with
        | .ntsc => [4, 8, 16, 32, 64, 96, 128, 160, 202, 254, 380, 508, 762, 1016, 2034, 4068]
        | .pal => [4, 8, 14, 30, 60, 88, 118, 148, 188, 236, 354, 472, 708, 944, 1890, 3778]
      let dmcTimes : List Nat :=
        match r with
        | .ntsc => [428, 380, 340, 320, 286, 254, 226, 214, 190, 160, 142, 128, 106, 84, 72, 54]
        | .pal => [398, 354, 316, 298, 276, 236, 210, 198, 176, 148, 132, 118, 98, 78, 66, 50]
      let pulse (p : Pulse) : Pulse :=
        if p.timer.toNat = 0 then
          { p with timer := p.period, seq := BitVec.ofNat 3 (p.seq.toNat + 1) }
        else { p with timer := p.timer - 1 }
      let t := a.triangle
      let triangle : Triangle :=
        if t.timer.toNat = 0 then
          { t with
            timer := t.period
            seq := if 0 < t.length ∧ 0 < t.lin.toNat then BitVec.ofNat 5 (t.seq.toNat + 1) else t.seq }
        else { t with timer := t.timer - 1 }
      let n := a.noise
      let noise : Noise :=
        if n.timer = 0 then
          { n with
            timer := noiseTimes.getD n.periodIdx.toNat 0 / 2 - 1, lfsr := shiftLfsr n.mode n.lfsr }
        else { n with timer := n.timer - 1 }
      let d := a.dmc
      let dmc : Dmc :=
        if d.timer = 0 then
          { d.clockOutput with timer := dmcTimes.getD d.rateIdx.toNat 0 / 2 - 1 }
        else { d with timer := d.timer - 1 }
      clockTimers a r =
        if a.frame.cycle % 2 = 1 then
          { a with
            triangle := triangle, pulse1 := pulse a.pulse1, pulse2 := pulse a.pulse2, noise := noise
            dmc := dmc }
        else { a with triangle := triangle }) ∧
  ((∀ (e : Envelope) (loop : Bool),
      (e.start = true →
          e.clock loop = { e with start := false, level := 15, div := e.vol }) ∧
        (e.start = false → e.div.toNat = 0 →
          (e.clock loop).div = e.vol ∧ (e.clock loop).start = false ∧
            (e.clock loop).level.toNat =
              if 0 < e.level.toNat then e.level.toNat - 1 else if loop then 15 else 0) ∧
        (e.start = false → 0 < e.div.toNat →
          (e.clock loop).div.toNat = e.div.toNat - 1 ∧ (e.clock loop).level = e.level ∧
            (e.clock loop).start = false) ∧
        e.output = if e.constVol then e.vol.toNat else e.level.toNat) ∧
    (∀ (halt : Bool) (n : Nat), clockLength halt n = if halt then n else n - 1) ∧
    (∀ t : Triangle,
      t.clockLinear.lin.toNat =
          (if t.linReload then t.linReloadVal.toNat else t.lin.toNat - 1) ∧
        t.clockLinear.linReload = (t.linReload && t.control)) ∧
    ∀ (p : Pulse) (first : Bool),
      let change := p.period.toNat / 2 ^ p.swShift.toNat
      let one := if first then 1 else 0
      let target : Int :=
        if p.swNeg then (p.period.toNat : Int) - change - one else (p.period.toNat : Int) + change
      let muted : Prop := p.period.toNat < 8 ∨ 2047 < target
      (p.muted first = true ↔ muted) ∧
        ((p.clockSweep first).period.toNat : Int) =
          (if p.swDiv.toNat = 0 ∧ p.swEn = true ∧ p.swShift.toNat ≠ 0 ∧ ¬muted then max target 0
            else p.period.toNat) ∧
        (p.clockSweep first).swDiv.toNat =
          (if p.swDiv.toNat = 0 ∨ p.swReload = true then p.swPeriod.toNat else p.swDiv.toNat - 1) ∧
        (p.clockSweep first).swReload = false) ∧
  (∀ (mode : Bool) (l : BitVec 15),
      let tap := if mode then l.toNat / 64 % 2 else l.toNat / 2 % 2
      (shiftLfsr mode l).toNat = l.toNat / 2 + 16384 * ((l.toNat % 2 + tap) % 2)) ∧
    ∀ d : Dmc, 0 < d.bitsLeft →
      let n := d.level.toNat
      let up : Bool := decide (d.shifter.toNat % 2 = 1)
      let moved : Nat :=
        if d.silence then n
        else if up then (if n ≤ 125 then n + 2 else n)
        else (if 2 ≤ n then n - 2 else n)
      d.clockOutput.level.toNat = moved ∧
        (1 < d.bitsLeft →
          d.clockOutput.bitsLeft = d.bitsLeft - 1 ∧
            d.clockOutput.shifter.toNat = d.shifter.toNat / 2 ∧ d.clockOutput.silence = d.silence ∧
            d.clockOutput.buffer = d.buffer) ∧
        (d.bitsLeft = 1 →
          d.clockOutput.bitsLeft = 8 ∧ d.clockOutput.buffer = none ∧
            d.clockOutput.silence = d.buffer.isNone ∧
            (d.buffer = none → d.clockOutput.shifter.toNat = d.shifter.toNat / 2) ∧
            ∀ b, d.buffer = some b → d.clockOutput.shifter = b)

/-- The DMC reader (R525, R526), its cursor in the ROM window: with an empty buffer and bytes left it
stalls the processor, fills the buffer, moves the cursor; the last byte restarts a looping sample, or
raises the interrupt if that is enabled. A sample that would run past 0xFFFF is refused. Otherwise
nothing happens. The moment of the refusal, and that the cursor stays at 0xFFFF after the byte there, are
the model's choices (log entries 14 and 15). -/
def Obligations.SampleReaderFetches : Prop :=
  ∀ s : State,
    let d := s.audio.dmc
    (d.buffer ≠ none ∨ d.remaining = 0 → dmcReader s = .next s) ∧
      (d.buffer = none → 0 < d.remaining → 0x10000 < d.curAddr.toNat + d.remaining →
        dmcReader s = .refused (.dmcSamplePastEnd d.curAddr d.remaining)) ∧
      (d.buffer = none → 0 < d.remaining → d.curAddr.toNat + d.remaining ≤ 0x10000 →
        0x8000 ≤ d.curAddr.toNat →
        ∃ t, dmcReader s = .next t ∧
          let last : Bool := decide (d.remaining = 1)
          let raise : Bool := last && !d.loop && d.irqEn
          t.audio =
              { s.audio with
                dmc :=
                  { d with
                    buffer := some (busRead s d.curAddr).value
                    remaining := if last && d.loop then d.startLen.toNat else d.remaining - 1
                    curAddr :=
                      if last && d.loop then d.startAddr
                      else if d.curAddr = 0xFFFF#16 then d.curAddr
                      else d.curAddr + 1
                    irqFlag := d.irqFlag || raise } } ∧
            t.cpu =
              { s.cpu with
                pending := s.cpu.pending + s.params.dmcStall
                irq := { s.cpu.irq with dmc := s.cpu.irq.dmc || raise } } ∧
            t.bus = s.bus ∧ t.video = s.video ∧ t.mapper = s.mapper)

/-! ## The scheduler and the invariants of a run -/

/-- A tick (R561): in ENGINE_ORDER, each engine whose divider counter is 0 makes one step and its counter
is set to its divider less one, and every other counter goes down by one; the dividers are 12, 4, 12 for
NTSC and 16, 5, 16 for PAL. The six values of ENGINE_ORDER are the six orders. What an engine not due
keeps, whatever the others do: the processor, not due or idle, its registers; the Video Engine its
position, and no pixel is given; the Audio Engine its timers, sequencers and filter, and no sample is
given; with the processor not due or idle as well, the whole Audio Engine. -/
def Obligations.SchedulerDividers : Prop :=
  let size (r : Region) (e : Engine) : Nat :=
    match r, e with
    | .ntsc, .processor => 12
    | .ntsc, .video => 4
    | .ntsc, .audio => 12
    | .pal, .processor => 16
    | .pal, .video => 5
    | .pal, .audio => 16
  let part (e : Engine) (s : State) : Result :=
    let n := size s.cart.region e
    match e with
    | .processor =>
      if s.sched.divProcessor = 0 then
        andThen (processorStep s) fun t => .next (t.setSched { t.sched with divProcessor := n - 1 })
      else .next (s.setSched { s.sched with divProcessor := s.sched.divProcessor - 1 })
    | .video =>
      if s.sched.divVideo = 0 then
        let t := videoStep s
        .next (t.setSched { t.sched with divVideo := n - 1 })
      else .next (s.setSched { s.sched with divVideo := s.sched.divVideo - 1 })
    | .audio =>
      if s.sched.divAudio = 0 then
        andThen (audioStep s) fun t => .next (t.setSched { t.sched with divAudio := n - 1 })
      else .next (s.setSched { s.sched with divAudio := s.sched.divAudio - 1 })
  let inOrder (e1 e2 e3 : Engine) (s : State) : Result :=
    andThen (part e1 (s.setOut { pixel := none, redraw := false, sample := none })) fun t =>
      andThen (part e2 t) (part e3)
  (∀ s : State,
      step s =
        match s.params.engineOrder with
        | .pva => inOrder .processor .video .audio s
        | .pav => inOrder .processor .audio .video s
        | .vpa => inOrder .video .processor .audio s
        | .vap => inOrder .video .audio .processor s
        | .apv => inOrder .audio .processor .video s
        | .avp => inOrder .audio .video .processor s) ∧
    ∀ s t : State, step s = .next t →
      let next (e : Engine) (n : Nat) : Nat := if n = 0 then size s.cart.region e - 1 else n - 1
      t.sched =
          { divProcessor := next .processor s.sched.divProcessor
            divVideo := next .video s.sched.divVideo
            divAudio := next .audio s.sched.divAudio } ∧
        (s.sched.divProcessor ≠ 0 ∨ 0 < s.cpu.pending →
          t.cpu.a = s.cpu.a ∧ t.cpu.x = s.cpu.x ∧ t.cpu.y = s.cpu.y ∧ t.cpu.sp = s.cpu.sp ∧
            t.cpu.pc = s.cpu.pc ∧ t.cpu.p = s.cpu.p ∧ (s.sched.divAudio ≠ 0 → t.audio = s.audio)) ∧
        (s.sched.divVideo ≠ 0 →
          t.video.dot = s.video.dot ∧ t.video.scanline = s.video.scanline ∧ t.out.pixel = none ∧
            t.out.redraw = false) ∧
        (s.sched.divAudio ≠ 0 →
          t.audio.pulse1.timer = s.audio.pulse1.timer ∧ t.audio.pulse2.timer = s.audio.pulse2.timer ∧
            t.audio.triangle.timer = s.audio.triangle.timer ∧
            t.audio.triangle.seq = s.audio.triangle.seq ∧
            t.audio.noise.timer = s.audio.noise.timer ∧ t.audio.noise.lfsr = s.audio.noise.lfsr ∧
            t.audio.dmc.timer = s.audio.dmc.timer ∧ t.audio.dmc.buffer = s.audio.dmc.buffer ∧
            t.audio.dmc.shifter = s.audio.dmc.shifter ∧
            t.audio.dmc.bitsLeft = s.audio.dmc.bitsLeft ∧
            t.audio.dmc.silence = s.audio.dmc.silence ∧ t.audio.tapPos = s.audio.tapPos ∧
            t.audio.acc = s.audio.acc ∧ t.out.sample = none)

/-- Every step leaves the cartridge and the session's parameters as they are: ROM is never written (R35,
R102, R104). -/
def Obligations.EveryStepKeepsTheSession : Prop :=
  ∀ s t : State, step s = .next t → t.cart = s.cart ∧ t.params = s.params

/-- Every step keeps every memory of its size (R105, R109, R113, R114, R115, R450) and in its canonical
form. That form, and the blank byte it does not list, are the model's own (log entry 1). -/
def Obligations.EveryStepKeepsMemoriesCanonical : Prop :=
  ∀ s t : State, s.memoriesWf = true → step s = .next t → t.memoriesWf = true

/-- Every step keeps the mapper's bank numbers inside the cartridge (R115). -/
def Obligations.EveryStepKeepsBanksInBounds : Prop :=
  ∀ s t : State, s.mapperOk = true → step s = .next t → t.mapperOk = true

/-- Every step keeps the engines' positions and counters in their ranges (R450, R451, R500, R561). That the
sample cursor never leaves 0xC000 to 0xFFFF rests on the model's choice at 0xFFFF (log entry 15). -/
def Obligations.EveryStepKeepsEnginesInRange : Prop :=
  ∀ s t : State, s.EnginesOk → step s = .next t → t.EnginesOk

/-- Every step keeps the maskable line equal to the two audio interrupt flags, and a disabled interrupt's
flag clear (R29, R406). -/
def Obligations.EveryStepKeepsInterruptLines : Prop :=
  ∀ s t : State, s.LinesAgree → step s = .next t → t.LinesAgree

/-- The machine right after reset meets all four invariants, and so does any machine launched, which takes a
valid cartridge of a supported mapper (R570), with memories in canonical form. The cartridge of `State.reset` is the
model's choice (log entry 3). -/
def Obligations.ResetMeetsTheInvariants : Prop :=
  (State.reset.memoriesWf = true ∧ State.reset.mapperOk = true ∧ State.reset.EnginesOk ∧
      State.reset.LinesAgree) ∧
    ∀ (l : Launch) (s : State), startSession l = .ok s →
      s.EnginesOk ∧ s.LinesAgree ∧ s.mapperOk = true ∧
        (Memory.wf 2048 l.ram && Memory.wf 2048 l.vram && Memory.wf 32 l.palette &&
            Memory.wf 8192 l.prgRam && Memory.wf 8192 l.chrRam && Memory.wf 256 l.oam = true →
          s.memoriesWf = true)

/-- What reset leaves (R34, R122, R123, R124, R131, R475, R545, R561), for every launch: the processor's
registers, PC from the reset vector, the bus, mapper, Video Engine, Audio Engine and dividers at their
reset values, every field of them; the memories hold what the launch gives (R131). The registers' values
are the spec's own decision D9 (log entry 2). -/
def Obligations.ResetValues : Prop :=
  ∀ (l : Launch) (s : State), startSession l = .ok s →
    s.cpu =
        { a := 0, x := 0, y := 0, sp := 0xFD#8
          pc := (read16 s 0xFFFC#16).value
          p := { c := false, z := false, i := true, d := false, v := false, n := false }
          pending := l.params.resetPending
          irq := { frame := false, dmc := false, mapper := false }
          nmi := false } ∧
      s.bus.mirroring = l.cart.mirroring ∧ s.bus.strobe = false ∧ s.bus.pad0 = 0 ∧ s.bus.pad1 = 0 ∧
      (l.cart.mapperId = 0 → s.mapper.regs = .fixed) ∧
      (l.cart.mapperId = 1 →
        s.mapper.regs =
          .serial { shift := 0, count := 0, control := 0x0C#5, chr0 := 0, chr1 := 0, prgSel := 0 }) ∧
      (l.cart.mapperId = 2 → s.mapper.regs = .prgSwitch 0) ∧
      (l.cart.mapperId = 3 → s.mapper.regs = .chrSwitch 0) ∧
      s.video =
        { stage := .preRender, scanline := 261, dot := 0, v := 0, t := 0, fineX := 0, w := false
          oam := l.oam, oamAddr := 0, lineSprites := [], ctrl := 0, mask := 0, vblank := false
          sprite0Hit := false, readBuffer := 0, oddFrame := false } ∧
      s.sched = { divProcessor := 0, divVideo := 0, divAudio := 0 } ∧
      s.bus.ram = l.ram ∧ s.bus.vram = l.vram ∧ s.bus.palette = l.palette ∧ s.bus.prgRam = l.prgRam ∧
      s.mapper.chrRam = l.chrRam ∧ s.cart = l.cart ∧ s.params = l.params ∧
      let envelope : Envelope := { constVol := false, vol := 0, start := false, div := 0, level := 0 }
      let pulse : Pulse :=
        { enabled := false, duty := 0, seq := 0, period := 0, timer := 0, length := 0, halt := false
          env := envelope, swEn := false, swPeriod := 0, swNeg := false, swShift := 0
          swReload := false, swDiv := 0 }
      s.audio =
        { frame := { cycle := 0, mode5 := false, irqInhibit := false, irqFlag := false }
          pulse1 := pulse, pulse2 := pulse
          triangle :=
            { enabled := false, period := 0, timer := 0, seq := 0, length := 0, control := false
              linReloadVal := 0, lin := 0, linReload := false }
          noise :=
            { enabled := false, mode := false, periodIdx := 0, timer := 0, lfsr := 1, length := 0
              halt := false, env := envelope }
          dmc :=
            { irqEn := false, loop := false, rateIdx := 0, timer := 0, level := 0
              startAddr := 0xC000#16, startLen := 1, curAddr := 0xC000#16, remaining := 0
              buffer := none, shifter := 0, bitsLeft := 8, silence := true, irqFlag := false }
          tapPos := 0, acc := 0 }

/-- The start of a session (R101, R102, R125, R570): a file whose magic is wrong, with no program bank, with
a trainer, or shorter than its header says gives no cartridge, each under its own status where it is the
file's one defect; every other file gives a cartridge, which is valid, reads its header's fields and
holds the payload, program ROM first. A session starts for a valid cartridge of mapper ids 0 to 3 and
for nothing else; from a file, it is the session of the file's cartridge. -/
def Obligations.SessionStart : Prop :=
  (∀ file : List Byte,
      let byteAt (k : Nat) : Nat := (file.getD k 0).toNat
      let magic := file.take 4 = [0x4E#8, 0x45#8, 0x53#8, 0x1A#8]
      let prgSize := byteAt 4 * 16384
      let chrSize := byteAt 5 * 8192
      let banks := byteAt 4 ≠ 0
      let plain := byteAt 6 / 4 % 2 = 0
      let whole := 16 + prgSize + chrSize ≤ file.length
      (∀ c, loadCartridge (some file) = .ok c →
          magic ∧ banks ∧ plain ∧ whole ∧ c.valid = true ∧ c.prgBanks = byteAt 4 ∧
            c.chrBanks = byteAt 5 ∧ c.mapperId = byteAt 7 / 16 * 16 + byteAt 6 / 16 ∧
            c.mirroring = (if byteAt 6 % 2 = 1 then .vertical else .horizontal) ∧
            c.battery = decide (byteAt 6 / 2 % 2 = 1) ∧
            c.region = (if byteAt 9 % 2 = 1 then .pal else .ntsc) ∧
            (∀ k, k < prgSize → Memory.read c.prg k = file.getD (16 + k) 0) ∧
            ∀ k, k < chrSize → Memory.read c.chr k = file.getD (16 + prgSize + k) 0) ∧
        (magic → banks → plain → whole → ∃ c, loadCartridge (some file) = .ok c) ∧
        (¬magic → banks → plain → whole → loadCartridge (some file) = .error .badMagic) ∧
        (magic → ¬banks → plain → whole → loadCartridge (some file) = .error .zeroProgramBanks) ∧
        (magic → banks → ¬plain → whole → loadCartridge (some file) = .error .trainerPresent) ∧
        (magic → banks → plain → ¬whole → loadCartridge (some file) = .error .shortRead)) ∧
    loadCartridge none = .error .unreadable ∧
    (∀ l : Launch,
      (l.cart.valid = true → l.cart.mapperId ≤ 3 → ∃ s, startSession l = .ok s) ∧
        (l.cart.valid = true → 3 < l.cart.mapperId →
          startSession l = .error (.unsupportedMapper l.cart.mapperId)) ∧
        (l.cart.valid = false → startSession l = .error .invalidCartridge)) ∧
    ∀ (file : Option (List Byte)) (l : Launch),
      (∀ c, loadCartridge file = .ok c → startFile file l = startSession { l with cart := c }) ∧
        ∀ e, loadCartridge file = .error e → startFile file l = .error (.load e)
end

