-- ==== Sys2Proof/Laws/Alu.lean ====
section
/-! SUPPORT. The bit-level flag computations of Flags.lean as arithmetic: Z and N of a byte, the carry and
the signed overflow of a sum and of a difference, the target of a branch. -/

namespace Sys2Proof.Machine

theorem bitOf_seven (x : Byte) : bitOf x 7 = decide (128 ≤ x.toNat) := by revert x; decide

theorem bitOf_six (x : Byte) : bitOf x 6 = decide (64 ≤ x.toNat % 128) := by revert x; decide

theorem bitOf_zero (x : Byte) : bitOf x 0 = decide (x.toNat % 2 = 1) := by revert x; decide

theorem signMask_ne_zero (x : Byte) : ((x &&& 0x80#8) != 0) = bitOf x 7 := by revert x; decide

theorem bitOf_and (x y : Byte) (k : Nat) : bitOf (x &&& y) k = (bitOf x k && bitOf y k) := by
  simp [bitOf]

theorem bitOf_xor (x y : Byte) (k : Nat) : bitOf (x ^^^ y) k = (bitOf x k ^^ bitOf y k) := by
  simp [bitOf]

theorem toInt_byte (x : Byte) :
    x.toInt = if x.toNat < 128 then (x.toNat : Int) else x.toNat - 256 := by
  revert x; decide

/-- `SetZN` (R27) as arithmetic. -/
theorem withZN_eq (p : Flags) (v : Byte) : p.withZN v = p.setZN v := by
  have h : decide (v.toNat = 0) = (v == 0) := by revert v; decide
  simp [Flags.withZN, Flags.setZN, bitOf_seven, h]

/-- The overflow formula of R250 is signed overflow (R255). -/
theorem overflow_add (a m : Byte) (c : Nat) (hc : c ≤ 1) :
    (((a ^^^ BitVec.ofNat 8 (a.toNat + m.toNat + c)) &&&
          (m ^^^ BitVec.ofNat 8 (a.toNat + m.toNat + c)) &&& 0x80#8) != 0) =
      decide (a.toInt + m.toInt + (c : Int) < -128 ∨ 127 < a.toInt + m.toInt + (c : Int)) := by
  rw [signMask_ne_zero, bitOf_and, bitOf_xor, bitOf_xor, bitOf_seven, bitOf_seven, bitOf_seven,
    toInt_byte, toInt_byte, BitVec.toNat_ofNat, Bool.eq_iff_iff]
  have h1 := a.isLt
  have h2 := m.isLt
  simp only [Bool.and_eq_true, decide_eq_true_eq, bne_iff_ne, ne_eq, decide_eq_decide]
  split <;> split <;> omega

theorem toNat_complement (m : Byte) : (m ^^^ 0xFF#8).toNat = 255 - m.toNat := by revert m; decide

theorem toInt_complement (m : Byte) : (m ^^^ 0xFF#8).toInt = -1 - m.toInt := by revert m; decide

/-- The result of SBC (R251) as a difference. -/
theorem difference_eq (a m : Byte) (c : Bool) :
    BitVec.ofNat 8 (a.toNat + (m ^^^ 0xFF#8).toNat + bitNat c) =
      BitVec.ofInt 8 (a.toNat - m.toNat - (if c then 0 else 1 : Nat)) := by
  rw [toNat_complement]
  apply BitVec.eq_of_toInt_eq
  have h1 := a.isLt
  have h2 := m.isLt
  cases c <;> simp [bitNat, BitVec.toInt_ofInt, BitVec.toInt_ofNat']
  all_goals (simp only [Int.bmod]; omega)

/-- The target of a branch (R173): PC plus the signed offset, modulo 65536. -/
theorem branchTarget_eq (pc : Word) (off : Byte) :
    branchTarget pc off = BitVec.ofInt 16 (pc.toNat + off.toInt) := by
  have h : ((sext8 off).toNat : Int) =
      if off.toNat < 128 then (off.toNat : Int) else off.toNat - 256 + 65536 := by
    revert off; decide
  have h2 := pc.isLt
  have h3 := off.isLt
  apply BitVec.eq_of_toNat_eq
  rw [branchTarget, toInt_byte, BitVec.toNat_add, BitVec.toNat_ofInt]
  split at h <;> (simp; omega)

theorem toNat_hiByte (w : Word) : (hiByte w).toNat = w.toNat / 256 := by
  have h := w.isLt
  simp only [hiByte, BitVec.toNat_setWidth, BitVec.toNat_ushiftRight, Nat.shiftRight_eq_div_pow]
  omega

theorem toNat_loByte (w : Word) : (loByte w).toNat = w.toNat % 256 := by
  simp [loByte, BitVec.toNat_setWidth]

theorem toNat_mkWord (hi lo : Byte) : (mkWord hi lo).toNat = hi.toNat * 256 + lo.toNat := by
  have h := lo.isLt
  rw [mkWord, BitVec.toNat_append, Nat.shiftLeft_eq, Nat.mul_comm, ← Nat.two_pow_add_eq_or_of_lt h]

/-- The two bytes of a word make the word. -/
theorem mkWord_hiByte_loByte (w : Word) : mkWord (hiByte w) (loByte w) = w := by
  apply BitVec.eq_of_toNat_eq
  rw [toNat_mkWord, toNat_hiByte, toNat_loByte]
  omega

/-- Two addresses lie in different pages when their high bytes differ (R168). -/
theorem crossesPage_eq (a b : Word) : crossesPage a b = decide (a.toNat / 256 ≠ b.toNat / 256) := by
  rw [crossesPage, bne, ← toNat_hiByte, ← toNat_hiByte]
  by_cases h : hiByte a = hiByte b <;> simp [h, BitVec.toNat_inj]

end Sys2Proof.Machine
end

