-- ==== Sys2Proof/Laws/Memory.lean ====
section
/-! SUPPORT. The laws of a memory: read after write, and every operation keeps the canonical form. -/

namespace Sys2Proof.Machine

@[simp] theorem Memory.read_nil (a : Nat) : Memory.read [] a = Config.blankByte := rfl

theorem Memory.read_erase_same (m : Memory) (a : Nat) :
    Memory.read (Memory.erase m a) a = Config.blankByte := by
  induction m with
  | nil => rfl
  | cons c m ih =>
    obtain ⟨k, v⟩ := c
    by_cases h : k = a
    · simpa [Memory.erase, h] using ih
    · simpa [Memory.erase, Memory.read, h] using ih

theorem Memory.read_erase_other (m : Memory) {a b : Nat} (h : b ≠ a) :
    Memory.read (Memory.erase m a) b = Memory.read m b := by
  induction m with
  | nil => rfl
  | cons c m ih =>
    obtain ⟨k, v⟩ := c
    by_cases hk : k = a
    · have : ¬ a = b := fun e => h e.symm
      simpa [Memory.erase, Memory.read, hk, this] using ih
    · by_cases hb : k = b
      · subst hb; simp [Memory.erase, Memory.read, hk]
      · simpa [Memory.erase, Memory.read, hk, hb] using ih

theorem Memory.read_place_other (m : Memory) {a b : Nat} (v : Byte) (h : b ≠ a) :
    Memory.read (Memory.place m a v) b = Memory.read m b := by
  have ha : ¬ a = b := fun e => h e.symm
  induction m with
  | nil => simp [Memory.place, Memory.read, ha]
  | cons c m ih =>
    obtain ⟨k, w⟩ := c
    by_cases hk : a < k
    · simp [Memory.place, Memory.read, hk, ha]
    · by_cases hb : k = b
      · subst hb; simp [Memory.place, Memory.read, hk]
      · simpa [Memory.place, Memory.read, hk, hb] using ih

theorem Memory.read_place_erase_same (m : Memory) (a : Nat) (v : Byte) :
    Memory.read (Memory.place (Memory.erase m a) a v) a = v := by
  induction m with
  | nil => simp [Memory.erase, Memory.place, Memory.read]
  | cons c m ih =>
    obtain ⟨k, w⟩ := c
    by_cases h : k = a
    · simpa [Memory.erase, h] using ih
    · by_cases hk : a < k
      · simp [Memory.erase, Memory.place, Memory.read, h, hk]
      · simpa [Memory.erase, Memory.place, Memory.read, h, hk] using ih

/-- A read after a write to the same address gives the byte written. -/
@[simp] theorem Memory.read_write_same (m : Memory) (a : Nat) (v : Byte) :
    Memory.read (Memory.write m a v) a = v := by
  by_cases h : v = Config.blankByte
  · simp [Memory.write, h, Memory.read_erase_same]
  · simp [Memory.write, h, Memory.read_place_erase_same]

/-- A write leaves every other address alone. -/
theorem Memory.read_write_other (m : Memory) {a b : Nat} (v : Byte) (h : b ≠ a) :
    Memory.read (Memory.write m a v) b = Memory.read m b := by
  by_cases hv : v = Config.blankByte
  · simp [Memory.write, hv, Memory.read_erase_other m h]
  · simp [Memory.write, hv, Memory.read_place_other _ v h, Memory.read_erase_other m h]

/-- Both cases of a read after a write. -/
theorem Memory.read_write (m : Memory) (a b : Nat) (v : Byte) :
    Memory.read (Memory.write m a v) b = if b = a then v else Memory.read m b := by
  by_cases h : b = a
  · simp [h]
  · simp [h, Memory.read_write_other m v h]

theorem Memory.wfFrom_mono {size lo lo' : Nat} {m : Memory} (h : Memory.wfFrom size lo m = true)
    (hl : lo' ≤ lo) : Memory.wfFrom size lo' m = true := by
  cases m with
  | nil => rfl
  | cons c m =>
    obtain ⟨k, v⟩ := c
    simp only [Memory.wfFrom, Bool.and_eq_true, decide_eq_true_eq] at h ⊢
    exact ⟨⟨⟨by omega, h.1.1.2⟩, h.1.2⟩, h.2⟩

theorem Memory.wfFrom_erase {size : Nat} {m : Memory} (a : Nat) :
    ∀ {lo : Nat}, Memory.wfFrom size lo m = true → Memory.wfFrom size lo (Memory.erase m a) = true := by
  induction m with
  | nil => intro lo h; exact h
  | cons c m ih =>
    obtain ⟨k, v⟩ := c
    intro lo h
    simp only [Memory.wfFrom, Bool.and_eq_true, decide_eq_true_eq] at h
    by_cases hk : k = a
    · simp only [Memory.erase, hk, if_true]
      exact Memory.wfFrom_mono (ih h.2) (by omega)
    · simp only [Memory.erase, hk, if_false, Memory.wfFrom, Bool.and_eq_true, decide_eq_true_eq]
      exact ⟨h.1, ih h.2⟩

theorem Memory.wfFrom_place_erase {size : Nat} {m : Memory} {a : Nat} {v : Byte} (ha : a < size)
    (hv : v ≠ Config.blankByte) :
    ∀ {lo : Nat}, lo ≤ a → Memory.wfFrom size lo m = true →
      Memory.wfFrom size lo (Memory.place (Memory.erase m a) a v) = true := by
  induction m with
  | nil => intro lo hl _; simp [Memory.erase, Memory.place, Memory.wfFrom, ha, hv, hl]
  | cons c m ih =>
    obtain ⟨k, w⟩ := c
    intro lo hl h
    simp only [Memory.wfFrom, Bool.and_eq_true, decide_eq_true_eq] at h
    by_cases hk : k = a
    · simp only [Memory.erase, hk, if_true]
      exact ih hl (Memory.wfFrom_mono h.2 (by omega))
    · by_cases hlt : a < k
      · simp only [Memory.erase, hk, if_false, Memory.place, hlt, if_true, Memory.wfFrom,
          Bool.and_eq_true, decide_eq_true_eq]
        exact ⟨⟨⟨hl, ha⟩, hv⟩, ⟨⟨by omega, h.1.1.2⟩, h.1.2⟩, Memory.wfFrom_erase a h.2⟩
      · simp only [Memory.erase, hk, if_false, Memory.place, hlt, Memory.wfFrom, Bool.and_eq_true,
          decide_eq_true_eq]
        exact ⟨h.1, ih (by omega) h.2⟩

/-- A write inside the memory keeps the canonical form. -/
theorem Memory.wf_write {size : Nat} {m : Memory} {a : Nat} (v : Byte) (h : Memory.wf size m = true)
    (ha : a < size) : Memory.wf size (Memory.write m a v) = true := by
  by_cases hv : v = Config.blankByte
  · simpa [Memory.write, hv, Memory.wf] using Memory.wfFrom_erase a h
  · simpa [Memory.write, hv, Memory.wf] using Memory.wfFrom_place_erase ha hv (Nat.zero_le a) h

theorem Memory.read_ofBytes_below (bs : List Byte) :
    ∀ a k, k < a → Memory.read (Memory.ofBytes a bs) k = Config.blankByte := by
  induction bs with
  | nil => intros; rfl
  | cons b bs ih =>
    intro a k h
    unfold Memory.ofBytes
    split
    · exact ih _ _ (by omega)
    · rw [Memory.read, if_neg (by omega)]
      exact ih _ _ (by omega)

/-- The bytes put in are the bytes read back. -/
theorem Memory.read_ofBytes (bs : List Byte) :
    ∀ a k, Memory.read (Memory.ofBytes a bs) (a + k) = bs.getD k Config.blankByte := by
  induction bs with
  | nil => intros; rfl
  | cons b bs ih =>
    intro a k
    unfold Memory.ofBytes
    cases k with
    | zero =>
      split
      · rename_i h
        rw [Memory.read_ofBytes_below _ _ _ (by omega)]
        simp [h]
      · rw [Memory.read, if_pos (by omega)]
        rfl
    | succ k =>
      have h := ih (a + 1) k
      rw [show a + 1 + k = a + (k + 1) by omega] at h
      split
      · rw [h]; rfl
      · rw [Memory.read, if_neg (by omega), h]; rfl

theorem Memory.wfFrom_ofBytes {size : Nat} (bs : List Byte) :
    ∀ {a : Nat}, a + bs.length ≤ size → Memory.wfFrom size a (Memory.ofBytes a bs) = true := by
  induction bs with
  | nil => intro a _; rfl
  | cons b bs ih =>
    intro a h
    simp only [List.length_cons] at h
    have ih' : Memory.wfFrom size (a + 1) (Memory.ofBytes (a + 1) bs) = true := ih (by omega)
    by_cases hb : b = Config.blankByte
    · simpa [Memory.ofBytes, hb] using Memory.wfFrom_mono ih' (Nat.le_succ a)
    · simp only [Memory.ofBytes, hb, if_false, Memory.wfFrom, Bool.and_eq_true, decide_eq_true_eq]
      exact ⟨⟨⟨Nat.le_refl a, by omega⟩, hb⟩, ih'⟩

/-- The bytes of a file, placed from 0 up, are in canonical form. -/
theorem Memory.wf_ofBytes {size : Nat} {bs : List Byte} (h : bs.length ≤ size) :
    Memory.wf size (Memory.ofBytes 0 bs) = true := Memory.wfFrom_ofBytes bs (by omega)

end Sys2Proof.Machine
end

