-- ==== Sys2Proof/Laws/State.lean ====
section
/-! SUPPORT. One lemma for each field and each named update of State: no later proof unfolds a record
update. -/

namespace Sys2Proof.Machine

@[simp] theorem State.setCpu_cpu (s : State) (n : Cpu) : (s.setCpu n).cpu = n := rfl
@[simp] theorem State.setCpu_bus (s : State) (n : Cpu) : (s.setCpu n).bus = s.bus := rfl
@[simp] theorem State.setCpu_mapper (s : State) (n : Cpu) : (s.setCpu n).mapper = s.mapper := rfl
@[simp] theorem State.setCpu_video (s : State) (n : Cpu) : (s.setCpu n).video = s.video := rfl
@[simp] theorem State.setCpu_audio (s : State) (n : Cpu) : (s.setCpu n).audio = s.audio := rfl
@[simp] theorem State.setCpu_sched (s : State) (n : Cpu) : (s.setCpu n).sched = s.sched := rfl
@[simp] theorem State.setCpu_draws (s : State) (n : Cpu) : (s.setCpu n).draws = s.draws := rfl
@[simp] theorem State.setCpu_out (s : State) (n : Cpu) : (s.setCpu n).out = s.out := rfl
@[simp] theorem State.setCpu_cart (s : State) (n : Cpu) : (s.setCpu n).cart = s.cart := rfl
@[simp] theorem State.setCpu_params (s : State) (n : Cpu) : (s.setCpu n).params = s.params := rfl
@[simp] theorem State.setBus_cpu (s : State) (n : BusState) : (s.setBus n).cpu = s.cpu := rfl
@[simp] theorem State.setBus_bus (s : State) (n : BusState) : (s.setBus n).bus = n := rfl
@[simp] theorem State.setBus_mapper (s : State) (n : BusState) : (s.setBus n).mapper = s.mapper := rfl
@[simp] theorem State.setBus_video (s : State) (n : BusState) : (s.setBus n).video = s.video := rfl
@[simp] theorem State.setBus_audio (s : State) (n : BusState) : (s.setBus n).audio = s.audio := rfl
@[simp] theorem State.setBus_sched (s : State) (n : BusState) : (s.setBus n).sched = s.sched := rfl
@[simp] theorem State.setBus_draws (s : State) (n : BusState) : (s.setBus n).draws = s.draws := rfl
@[simp] theorem State.setBus_out (s : State) (n : BusState) : (s.setBus n).out = s.out := rfl
@[simp] theorem State.setBus_cart (s : State) (n : BusState) : (s.setBus n).cart = s.cart := rfl
@[simp] theorem State.setBus_params (s : State) (n : BusState) : (s.setBus n).params = s.params := rfl
@[simp] theorem State.setMapper_cpu (s : State) (n : MapperState) : (s.setMapper n).cpu = s.cpu := rfl
@[simp] theorem State.setMapper_bus (s : State) (n : MapperState) : (s.setMapper n).bus = s.bus := rfl
@[simp] theorem State.setMapper_mapper (s : State) (n : MapperState) : (s.setMapper n).mapper = n := rfl
@[simp] theorem State.setMapper_video (s : State) (n : MapperState) : (s.setMapper n).video = s.video := rfl
@[simp] theorem State.setMapper_audio (s : State) (n : MapperState) : (s.setMapper n).audio = s.audio := rfl
@[simp] theorem State.setMapper_sched (s : State) (n : MapperState) : (s.setMapper n).sched = s.sched := rfl
@[simp] theorem State.setMapper_draws (s : State) (n : MapperState) : (s.setMapper n).draws = s.draws := rfl
@[simp] theorem State.setMapper_out (s : State) (n : MapperState) : (s.setMapper n).out = s.out := rfl
@[simp] theorem State.setMapper_cart (s : State) (n : MapperState) : (s.setMapper n).cart = s.cart := rfl
@[simp] theorem State.setMapper_params (s : State) (n : MapperState) : (s.setMapper n).params = s.params := rfl
@[simp] theorem State.setVideo_cpu (s : State) (n : Video) : (s.setVideo n).cpu = s.cpu := rfl
@[simp] theorem State.setVideo_bus (s : State) (n : Video) : (s.setVideo n).bus = s.bus := rfl
@[simp] theorem State.setVideo_mapper (s : State) (n : Video) : (s.setVideo n).mapper = s.mapper := rfl
@[simp] theorem State.setVideo_video (s : State) (n : Video) : (s.setVideo n).video = n := rfl
@[simp] theorem State.setVideo_audio (s : State) (n : Video) : (s.setVideo n).audio = s.audio := rfl
@[simp] theorem State.setVideo_sched (s : State) (n : Video) : (s.setVideo n).sched = s.sched := rfl
@[simp] theorem State.setVideo_draws (s : State) (n : Video) : (s.setVideo n).draws = s.draws := rfl
@[simp] theorem State.setVideo_out (s : State) (n : Video) : (s.setVideo n).out = s.out := rfl
@[simp] theorem State.setVideo_cart (s : State) (n : Video) : (s.setVideo n).cart = s.cart := rfl
@[simp] theorem State.setVideo_params (s : State) (n : Video) : (s.setVideo n).params = s.params := rfl
@[simp] theorem State.setAudio_cpu (s : State) (n : Audio) : (s.setAudio n).cpu = s.cpu := rfl
@[simp] theorem State.setAudio_bus (s : State) (n : Audio) : (s.setAudio n).bus = s.bus := rfl
@[simp] theorem State.setAudio_mapper (s : State) (n : Audio) : (s.setAudio n).mapper = s.mapper := rfl
@[simp] theorem State.setAudio_video (s : State) (n : Audio) : (s.setAudio n).video = s.video := rfl
@[simp] theorem State.setAudio_audio (s : State) (n : Audio) : (s.setAudio n).audio = n := rfl
@[simp] theorem State.setAudio_sched (s : State) (n : Audio) : (s.setAudio n).sched = s.sched := rfl
@[simp] theorem State.setAudio_draws (s : State) (n : Audio) : (s.setAudio n).draws = s.draws := rfl
@[simp] theorem State.setAudio_out (s : State) (n : Audio) : (s.setAudio n).out = s.out := rfl
@[simp] theorem State.setAudio_cart (s : State) (n : Audio) : (s.setAudio n).cart = s.cart := rfl
@[simp] theorem State.setAudio_params (s : State) (n : Audio) : (s.setAudio n).params = s.params := rfl
@[simp] theorem State.setSched_cpu (s : State) (n : Sched) : (s.setSched n).cpu = s.cpu := rfl
@[simp] theorem State.setSched_bus (s : State) (n : Sched) : (s.setSched n).bus = s.bus := rfl
@[simp] theorem State.setSched_mapper (s : State) (n : Sched) : (s.setSched n).mapper = s.mapper := rfl
@[simp] theorem State.setSched_video (s : State) (n : Sched) : (s.setSched n).video = s.video := rfl
@[simp] theorem State.setSched_audio (s : State) (n : Sched) : (s.setSched n).audio = s.audio := rfl
@[simp] theorem State.setSched_sched (s : State) (n : Sched) : (s.setSched n).sched = n := rfl
@[simp] theorem State.setSched_draws (s : State) (n : Sched) : (s.setSched n).draws = s.draws := rfl
@[simp] theorem State.setSched_out (s : State) (n : Sched) : (s.setSched n).out = s.out := rfl
@[simp] theorem State.setSched_cart (s : State) (n : Sched) : (s.setSched n).cart = s.cart := rfl
@[simp] theorem State.setSched_params (s : State) (n : Sched) : (s.setSched n).params = s.params := rfl
@[simp] theorem State.setDraws_cpu (s : State) (n : Nat) : (s.setDraws n).cpu = s.cpu := rfl
@[simp] theorem State.setDraws_bus (s : State) (n : Nat) : (s.setDraws n).bus = s.bus := rfl
@[simp] theorem State.setDraws_mapper (s : State) (n : Nat) : (s.setDraws n).mapper = s.mapper := rfl
@[simp] theorem State.setDraws_video (s : State) (n : Nat) : (s.setDraws n).video = s.video := rfl
@[simp] theorem State.setDraws_audio (s : State) (n : Nat) : (s.setDraws n).audio = s.audio := rfl
@[simp] theorem State.setDraws_sched (s : State) (n : Nat) : (s.setDraws n).sched = s.sched := rfl
@[simp] theorem State.setDraws_draws (s : State) (n : Nat) : (s.setDraws n).draws = n := rfl
@[simp] theorem State.setDraws_out (s : State) (n : Nat) : (s.setDraws n).out = s.out := rfl
@[simp] theorem State.setDraws_cart (s : State) (n : Nat) : (s.setDraws n).cart = s.cart := rfl
@[simp] theorem State.setDraws_params (s : State) (n : Nat) : (s.setDraws n).params = s.params := rfl
@[simp] theorem State.setOut_cpu (s : State) (n : Output) : (s.setOut n).cpu = s.cpu := rfl
@[simp] theorem State.setOut_bus (s : State) (n : Output) : (s.setOut n).bus = s.bus := rfl
@[simp] theorem State.setOut_mapper (s : State) (n : Output) : (s.setOut n).mapper = s.mapper := rfl
@[simp] theorem State.setOut_video (s : State) (n : Output) : (s.setOut n).video = s.video := rfl
@[simp] theorem State.setOut_audio (s : State) (n : Output) : (s.setOut n).audio = s.audio := rfl
@[simp] theorem State.setOut_sched (s : State) (n : Output) : (s.setOut n).sched = s.sched := rfl
@[simp] theorem State.setOut_draws (s : State) (n : Output) : (s.setOut n).draws = s.draws := rfl
@[simp] theorem State.setOut_out (s : State) (n : Output) : (s.setOut n).out = n := rfl
@[simp] theorem State.setOut_cart (s : State) (n : Output) : (s.setOut n).cart = s.cart := rfl
@[simp] theorem State.setOut_params (s : State) (n : Output) : (s.setOut n).params = s.params := rfl
@[simp] theorem State.setA_a (s : State) (n : Byte) : (s.setA n).cpu.a = n := rfl
@[simp] theorem State.setA_x (s : State) (n : Byte) : (s.setA n).cpu.x = s.cpu.x := rfl
@[simp] theorem State.setA_y (s : State) (n : Byte) : (s.setA n).cpu.y = s.cpu.y := rfl
@[simp] theorem State.setA_sp (s : State) (n : Byte) : (s.setA n).cpu.sp = s.cpu.sp := rfl
@[simp] theorem State.setA_pc (s : State) (n : Byte) : (s.setA n).cpu.pc = s.cpu.pc := rfl
@[simp] theorem State.setA_p (s : State) (n : Byte) : (s.setA n).cpu.p = s.cpu.p := rfl
@[simp] theorem State.setA_pending (s : State) (n : Byte) : (s.setA n).cpu.pending = s.cpu.pending := rfl
@[simp] theorem State.setA_irq (s : State) (n : Byte) : (s.setA n).cpu.irq = s.cpu.irq := rfl
@[simp] theorem State.setA_nmi (s : State) (n : Byte) : (s.setA n).cpu.nmi = s.cpu.nmi := rfl
@[simp] theorem State.setA_bus (s : State) (n : Byte) : (s.setA n).bus = s.bus := rfl
@[simp] theorem State.setA_mapper (s : State) (n : Byte) : (s.setA n).mapper = s.mapper := rfl
@[simp] theorem State.setA_video (s : State) (n : Byte) : (s.setA n).video = s.video := rfl
@[simp] theorem State.setA_audio (s : State) (n : Byte) : (s.setA n).audio = s.audio := rfl
@[simp] theorem State.setA_sched (s : State) (n : Byte) : (s.setA n).sched = s.sched := rfl
@[simp] theorem State.setA_draws (s : State) (n : Byte) : (s.setA n).draws = s.draws := rfl
@[simp] theorem State.setA_out (s : State) (n : Byte) : (s.setA n).out = s.out := rfl
@[simp] theorem State.setA_cart (s : State) (n : Byte) : (s.setA n).cart = s.cart := rfl
@[simp] theorem State.setA_params (s : State) (n : Byte) : (s.setA n).params = s.params := rfl
@[simp] theorem State.setX_a (s : State) (n : Byte) : (s.setX n).cpu.a = s.cpu.a := rfl
@[simp] theorem State.setX_x (s : State) (n : Byte) : (s.setX n).cpu.x = n := rfl
@[simp] theorem State.setX_y (s : State) (n : Byte) : (s.setX n).cpu.y = s.cpu.y := rfl
@[simp] theorem State.setX_sp (s : State) (n : Byte) : (s.setX n).cpu.sp = s.cpu.sp := rfl
@[simp] theorem State.setX_pc (s : State) (n : Byte) : (s.setX n).cpu.pc = s.cpu.pc := rfl
@[simp] theorem State.setX_p (s : State) (n : Byte) : (s.setX n).cpu.p = s.cpu.p := rfl
@[simp] theorem State.setX_pending (s : State) (n : Byte) : (s.setX n).cpu.pending = s.cpu.pending := rfl
@[simp] theorem State.setX_irq (s : State) (n : Byte) : (s.setX n).cpu.irq = s.cpu.irq := rfl
@[simp] theorem State.setX_nmi (s : State) (n : Byte) : (s.setX n).cpu.nmi = s.cpu.nmi := rfl
@[simp] theorem State.setX_bus (s : State) (n : Byte) : (s.setX n).bus = s.bus := rfl
@[simp] theorem State.setX_mapper (s : State) (n : Byte) : (s.setX n).mapper = s.mapper := rfl
@[simp] theorem State.setX_video (s : State) (n : Byte) : (s.setX n).video = s.video := rfl
@[simp] theorem State.setX_audio (s : State) (n : Byte) : (s.setX n).audio = s.audio := rfl
@[simp] theorem State.setX_sched (s : State) (n : Byte) : (s.setX n).sched = s.sched := rfl
@[simp] theorem State.setX_draws (s : State) (n : Byte) : (s.setX n).draws = s.draws := rfl
@[simp] theorem State.setX_out (s : State) (n : Byte) : (s.setX n).out = s.out := rfl
@[simp] theorem State.setX_cart (s : State) (n : Byte) : (s.setX n).cart = s.cart := rfl
@[simp] theorem State.setX_params (s : State) (n : Byte) : (s.setX n).params = s.params := rfl
@[simp] theorem State.setY_a (s : State) (n : Byte) : (s.setY n).cpu.a = s.cpu.a := rfl
@[simp] theorem State.setY_x (s : State) (n : Byte) : (s.setY n).cpu.x = s.cpu.x := rfl
@[simp] theorem State.setY_y (s : State) (n : Byte) : (s.setY n).cpu.y = n := rfl
@[simp] theorem State.setY_sp (s : State) (n : Byte) : (s.setY n).cpu.sp = s.cpu.sp := rfl
@[simp] theorem State.setY_pc (s : State) (n : Byte) : (s.setY n).cpu.pc = s.cpu.pc := rfl
@[simp] theorem State.setY_p (s : State) (n : Byte) : (s.setY n).cpu.p = s.cpu.p := rfl
@[simp] theorem State.setY_pending (s : State) (n : Byte) : (s.setY n).cpu.pending = s.cpu.pending := rfl
@[simp] theorem State.setY_irq (s : State) (n : Byte) : (s.setY n).cpu.irq = s.cpu.irq := rfl
@[simp] theorem State.setY_nmi (s : State) (n : Byte) : (s.setY n).cpu.nmi = s.cpu.nmi := rfl
@[simp] theorem State.setY_bus (s : State) (n : Byte) : (s.setY n).bus = s.bus := rfl
@[simp] theorem State.setY_mapper (s : State) (n : Byte) : (s.setY n).mapper = s.mapper := rfl
@[simp] theorem State.setY_video (s : State) (n : Byte) : (s.setY n).video = s.video := rfl
@[simp] theorem State.setY_audio (s : State) (n : Byte) : (s.setY n).audio = s.audio := rfl
@[simp] theorem State.setY_sched (s : State) (n : Byte) : (s.setY n).sched = s.sched := rfl
@[simp] theorem State.setY_draws (s : State) (n : Byte) : (s.setY n).draws = s.draws := rfl
@[simp] theorem State.setY_out (s : State) (n : Byte) : (s.setY n).out = s.out := rfl
@[simp] theorem State.setY_cart (s : State) (n : Byte) : (s.setY n).cart = s.cart := rfl
@[simp] theorem State.setY_params (s : State) (n : Byte) : (s.setY n).params = s.params := rfl
@[simp] theorem State.setSp_a (s : State) (n : Byte) : (s.setSp n).cpu.a = s.cpu.a := rfl
@[simp] theorem State.setSp_x (s : State) (n : Byte) : (s.setSp n).cpu.x = s.cpu.x := rfl
@[simp] theorem State.setSp_y (s : State) (n : Byte) : (s.setSp n).cpu.y = s.cpu.y := rfl
@[simp] theorem State.setSp_sp (s : State) (n : Byte) : (s.setSp n).cpu.sp = n := rfl
@[simp] theorem State.setSp_pc (s : State) (n : Byte) : (s.setSp n).cpu.pc = s.cpu.pc := rfl
@[simp] theorem State.setSp_p (s : State) (n : Byte) : (s.setSp n).cpu.p = s.cpu.p := rfl
@[simp] theorem State.setSp_pending (s : State) (n : Byte) : (s.setSp n).cpu.pending = s.cpu.pending := rfl
@[simp] theorem State.setSp_irq (s : State) (n : Byte) : (s.setSp n).cpu.irq = s.cpu.irq := rfl
@[simp] theorem State.setSp_nmi (s : State) (n : Byte) : (s.setSp n).cpu.nmi = s.cpu.nmi := rfl
@[simp] theorem State.setSp_bus (s : State) (n : Byte) : (s.setSp n).bus = s.bus := rfl
@[simp] theorem State.setSp_mapper (s : State) (n : Byte) : (s.setSp n).mapper = s.mapper := rfl
@[simp] theorem State.setSp_video (s : State) (n : Byte) : (s.setSp n).video = s.video := rfl
@[simp] theorem State.setSp_audio (s : State) (n : Byte) : (s.setSp n).audio = s.audio := rfl
@[simp] theorem State.setSp_sched (s : State) (n : Byte) : (s.setSp n).sched = s.sched := rfl
@[simp] theorem State.setSp_draws (s : State) (n : Byte) : (s.setSp n).draws = s.draws := rfl
@[simp] theorem State.setSp_out (s : State) (n : Byte) : (s.setSp n).out = s.out := rfl
@[simp] theorem State.setSp_cart (s : State) (n : Byte) : (s.setSp n).cart = s.cart := rfl
@[simp] theorem State.setSp_params (s : State) (n : Byte) : (s.setSp n).params = s.params := rfl
@[simp] theorem State.setPc_a (s : State) (n : Word) : (s.setPc n).cpu.a = s.cpu.a := rfl
@[simp] theorem State.setPc_x (s : State) (n : Word) : (s.setPc n).cpu.x = s.cpu.x := rfl
@[simp] theorem State.setPc_y (s : State) (n : Word) : (s.setPc n).cpu.y = s.cpu.y := rfl
@[simp] theorem State.setPc_sp (s : State) (n : Word) : (s.setPc n).cpu.sp = s.cpu.sp := rfl
@[simp] theorem State.setPc_pc (s : State) (n : Word) : (s.setPc n).cpu.pc = n := rfl
@[simp] theorem State.setPc_p (s : State) (n : Word) : (s.setPc n).cpu.p = s.cpu.p := rfl
@[simp] theorem State.setPc_pending (s : State) (n : Word) : (s.setPc n).cpu.pending = s.cpu.pending := rfl
@[simp] theorem State.setPc_irq (s : State) (n : Word) : (s.setPc n).cpu.irq = s.cpu.irq := rfl
@[simp] theorem State.setPc_nmi (s : State) (n : Word) : (s.setPc n).cpu.nmi = s.cpu.nmi := rfl
@[simp] theorem State.setPc_bus (s : State) (n : Word) : (s.setPc n).bus = s.bus := rfl
@[simp] theorem State.setPc_mapper (s : State) (n : Word) : (s.setPc n).mapper = s.mapper := rfl
@[simp] theorem State.setPc_video (s : State) (n : Word) : (s.setPc n).video = s.video := rfl
@[simp] theorem State.setPc_audio (s : State) (n : Word) : (s.setPc n).audio = s.audio := rfl
@[simp] theorem State.setPc_sched (s : State) (n : Word) : (s.setPc n).sched = s.sched := rfl
@[simp] theorem State.setPc_draws (s : State) (n : Word) : (s.setPc n).draws = s.draws := rfl
@[simp] theorem State.setPc_out (s : State) (n : Word) : (s.setPc n).out = s.out := rfl
@[simp] theorem State.setPc_cart (s : State) (n : Word) : (s.setPc n).cart = s.cart := rfl
@[simp] theorem State.setPc_params (s : State) (n : Word) : (s.setPc n).params = s.params := rfl
@[simp] theorem State.setP_a (s : State) (n : Flags) : (s.setP n).cpu.a = s.cpu.a := rfl
@[simp] theorem State.setP_x (s : State) (n : Flags) : (s.setP n).cpu.x = s.cpu.x := rfl
@[simp] theorem State.setP_y (s : State) (n : Flags) : (s.setP n).cpu.y = s.cpu.y := rfl
@[simp] theorem State.setP_sp (s : State) (n : Flags) : (s.setP n).cpu.sp = s.cpu.sp := rfl
@[simp] theorem State.setP_pc (s : State) (n : Flags) : (s.setP n).cpu.pc = s.cpu.pc := rfl
@[simp] theorem State.setP_p (s : State) (n : Flags) : (s.setP n).cpu.p = n := rfl
@[simp] theorem State.setP_pending (s : State) (n : Flags) : (s.setP n).cpu.pending = s.cpu.pending := rfl
@[simp] theorem State.setP_irq (s : State) (n : Flags) : (s.setP n).cpu.irq = s.cpu.irq := rfl
@[simp] theorem State.setP_nmi (s : State) (n : Flags) : (s.setP n).cpu.nmi = s.cpu.nmi := rfl
@[simp] theorem State.setP_bus (s : State) (n : Flags) : (s.setP n).bus = s.bus := rfl
@[simp] theorem State.setP_mapper (s : State) (n : Flags) : (s.setP n).mapper = s.mapper := rfl
@[simp] theorem State.setP_video (s : State) (n : Flags) : (s.setP n).video = s.video := rfl
@[simp] theorem State.setP_audio (s : State) (n : Flags) : (s.setP n).audio = s.audio := rfl
@[simp] theorem State.setP_sched (s : State) (n : Flags) : (s.setP n).sched = s.sched := rfl
@[simp] theorem State.setP_draws (s : State) (n : Flags) : (s.setP n).draws = s.draws := rfl
@[simp] theorem State.setP_out (s : State) (n : Flags) : (s.setP n).out = s.out := rfl
@[simp] theorem State.setP_cart (s : State) (n : Flags) : (s.setP n).cart = s.cart := rfl
@[simp] theorem State.setP_params (s : State) (n : Flags) : (s.setP n).params = s.params := rfl
@[simp] theorem State.setPending_a (s : State) (n : Nat) : (s.setPending n).cpu.a = s.cpu.a := rfl
@[simp] theorem State.setPending_x (s : State) (n : Nat) : (s.setPending n).cpu.x = s.cpu.x := rfl
@[simp] theorem State.setPending_y (s : State) (n : Nat) : (s.setPending n).cpu.y = s.cpu.y := rfl
@[simp] theorem State.setPending_sp (s : State) (n : Nat) : (s.setPending n).cpu.sp = s.cpu.sp := rfl
@[simp] theorem State.setPending_pc (s : State) (n : Nat) : (s.setPending n).cpu.pc = s.cpu.pc := rfl
@[simp] theorem State.setPending_p (s : State) (n : Nat) : (s.setPending n).cpu.p = s.cpu.p := rfl
@[simp] theorem State.setPending_pending (s : State) (n : Nat) : (s.setPending n).cpu.pending = n := rfl
@[simp] theorem State.setPending_irq (s : State) (n : Nat) : (s.setPending n).cpu.irq = s.cpu.irq := rfl
@[simp] theorem State.setPending_nmi (s : State) (n : Nat) : (s.setPending n).cpu.nmi = s.cpu.nmi := rfl
@[simp] theorem State.setPending_bus (s : State) (n : Nat) : (s.setPending n).bus = s.bus := rfl
@[simp] theorem State.setPending_mapper (s : State) (n : Nat) : (s.setPending n).mapper = s.mapper := rfl
@[simp] theorem State.setPending_video (s : State) (n : Nat) : (s.setPending n).video = s.video := rfl
@[simp] theorem State.setPending_audio (s : State) (n : Nat) : (s.setPending n).audio = s.audio := rfl
@[simp] theorem State.setPending_sched (s : State) (n : Nat) : (s.setPending n).sched = s.sched := rfl
@[simp] theorem State.setPending_draws (s : State) (n : Nat) : (s.setPending n).draws = s.draws := rfl
@[simp] theorem State.setPending_out (s : State) (n : Nat) : (s.setPending n).out = s.out := rfl
@[simp] theorem State.setPending_cart (s : State) (n : Nat) : (s.setPending n).cart = s.cart := rfl
@[simp] theorem State.setPending_params (s : State) (n : Nat) : (s.setPending n).params = s.params := rfl
@[simp] theorem State.setIrq_a (s : State) (n : IrqLines) : (s.setIrq n).cpu.a = s.cpu.a := rfl
@[simp] theorem State.setIrq_x (s : State) (n : IrqLines) : (s.setIrq n).cpu.x = s.cpu.x := rfl
@[simp] theorem State.setIrq_y (s : State) (n : IrqLines) : (s.setIrq n).cpu.y = s.cpu.y := rfl
@[simp] theorem State.setIrq_sp (s : State) (n : IrqLines) : (s.setIrq n).cpu.sp = s.cpu.sp := rfl
@[simp] theorem State.setIrq_pc (s : State) (n : IrqLines) : (s.setIrq n).cpu.pc = s.cpu.pc := rfl
@[simp] theorem State.setIrq_p (s : State) (n : IrqLines) : (s.setIrq n).cpu.p = s.cpu.p := rfl
@[simp] theorem State.setIrq_pending (s : State) (n : IrqLines) : (s.setIrq n).cpu.pending = s.cpu.pending := rfl
@[simp] theorem State.setIrq_irq (s : State) (n : IrqLines) : (s.setIrq n).cpu.irq = n := rfl
@[simp] theorem State.setIrq_nmi (s : State) (n : IrqLines) : (s.setIrq n).cpu.nmi = s.cpu.nmi := rfl
@[simp] theorem State.setIrq_bus (s : State) (n : IrqLines) : (s.setIrq n).bus = s.bus := rfl
@[simp] theorem State.setIrq_mapper (s : State) (n : IrqLines) : (s.setIrq n).mapper = s.mapper := rfl
@[simp] theorem State.setIrq_video (s : State) (n : IrqLines) : (s.setIrq n).video = s.video := rfl
@[simp] theorem State.setIrq_audio (s : State) (n : IrqLines) : (s.setIrq n).audio = s.audio := rfl
@[simp] theorem State.setIrq_sched (s : State) (n : IrqLines) : (s.setIrq n).sched = s.sched := rfl
@[simp] theorem State.setIrq_draws (s : State) (n : IrqLines) : (s.setIrq n).draws = s.draws := rfl
@[simp] theorem State.setIrq_out (s : State) (n : IrqLines) : (s.setIrq n).out = s.out := rfl
@[simp] theorem State.setIrq_cart (s : State) (n : IrqLines) : (s.setIrq n).cart = s.cart := rfl
@[simp] theorem State.setIrq_params (s : State) (n : IrqLines) : (s.setIrq n).params = s.params := rfl
@[simp] theorem State.setNmi_a (s : State) (n : Bool) : (s.setNmi n).cpu.a = s.cpu.a := rfl
@[simp] theorem State.setNmi_x (s : State) (n : Bool) : (s.setNmi n).cpu.x = s.cpu.x := rfl
@[simp] theorem State.setNmi_y (s : State) (n : Bool) : (s.setNmi n).cpu.y = s.cpu.y := rfl
@[simp] theorem State.setNmi_sp (s : State) (n : Bool) : (s.setNmi n).cpu.sp = s.cpu.sp := rfl
@[simp] theorem State.setNmi_pc (s : State) (n : Bool) : (s.setNmi n).cpu.pc = s.cpu.pc := rfl
@[simp] theorem State.setNmi_p (s : State) (n : Bool) : (s.setNmi n).cpu.p = s.cpu.p := rfl
@[simp] theorem State.setNmi_pending (s : State) (n : Bool) : (s.setNmi n).cpu.pending = s.cpu.pending := rfl
@[simp] theorem State.setNmi_irq (s : State) (n : Bool) : (s.setNmi n).cpu.irq = s.cpu.irq := rfl
@[simp] theorem State.setNmi_nmi (s : State) (n : Bool) : (s.setNmi n).cpu.nmi = n := rfl
@[simp] theorem State.setNmi_bus (s : State) (n : Bool) : (s.setNmi n).bus = s.bus := rfl
@[simp] theorem State.setNmi_mapper (s : State) (n : Bool) : (s.setNmi n).mapper = s.mapper := rfl
@[simp] theorem State.setNmi_video (s : State) (n : Bool) : (s.setNmi n).video = s.video := rfl
@[simp] theorem State.setNmi_audio (s : State) (n : Bool) : (s.setNmi n).audio = s.audio := rfl
@[simp] theorem State.setNmi_sched (s : State) (n : Bool) : (s.setNmi n).sched = s.sched := rfl
@[simp] theorem State.setNmi_draws (s : State) (n : Bool) : (s.setNmi n).draws = s.draws := rfl
@[simp] theorem State.setNmi_out (s : State) (n : Bool) : (s.setNmi n).out = s.out := rfl
@[simp] theorem State.setNmi_cart (s : State) (n : Bool) : (s.setNmi n).cart = s.cart := rfl
@[simp] theorem State.setNmi_params (s : State) (n : Bool) : (s.setNmi n).params = s.params := rfl

end Sys2Proof.Machine
end

