-- ==== Sys2Proof/Laws/Bus.lean ====
section
/-! SUPPORT. What the shared operations can change, said once: a read of the bus keeps everything but
the device fields a read has an effect on (`ReadKeeps`), a write keeps everything but memories and
device registers (`WriteKeeps`), and the operations written over them inherit it. -/

namespace Sys2Proof.Machine

/-- What every bus read leaves unchanged (R65). Not listed, because a read can change them: the
sources FRAME and DMC, `v`, `w`, `vblank`, `readBuffer`, the audio interrupt flags, the controller
shift registers, the draw counter. -/
structure ReadKeeps (s t : State) : Prop where
  a : t.cpu.a = s.cpu.a
  x : t.cpu.x = s.cpu.x
  y : t.cpu.y = s.cpu.y
  sp : t.cpu.sp = s.cpu.sp
  pc : t.cpu.pc = s.cpu.pc
  p : t.cpu.p = s.cpu.p
  pending : t.cpu.pending = s.cpu.pending
  nmi : t.cpu.nmi = s.cpu.nmi
  irqMapper : t.cpu.irq.mapper = s.cpu.irq.mapper
  ram : t.bus.ram = s.bus.ram
  vram : t.bus.vram = s.bus.vram
  palette : t.bus.palette = s.bus.palette
  prgRam : t.bus.prgRam = s.bus.prgRam
  mirroring : t.bus.mirroring = s.bus.mirroring
  strobe : t.bus.strobe = s.bus.strobe
  mapper : t.mapper = s.mapper
  oam : t.video.oam = s.video.oam
  oamAddr : t.video.oamAddr = s.video.oamAddr
  ctrl : t.video.ctrl = s.video.ctrl
  mask : t.video.mask = s.video.mask
  stage : t.video.stage = s.video.stage
  scanline : t.video.scanline = s.video.scanline
  dot : t.video.dot = s.video.dot
  lineSprites : t.video.lineSprites = s.video.lineSprites
  audio : ∃ f g, t.audio =
    { s.audio with frame := { s.audio.frame with irqFlag := f }, dmc := { s.audio.dmc with irqFlag := g } }
  cart : t.cart = s.cart
  params : t.params = s.params
  sched : t.sched = s.sched
  out : t.out = s.out

theorem ReadKeeps.refl (s : State) : ReadKeeps s s := by
  constructor <;> first | rfl | exact ⟨s.audio.frame.irqFlag, s.audio.dmc.irqFlag, rfl⟩

theorem ReadKeeps.trans {s t u : State} (h : ReadKeeps s t) (k : ReadKeeps t u) : ReadKeeps s u := by
  constructor
  case audio =>
    obtain ⟨f, g, hf⟩ := h.audio
    obtain ⟨f', g', hk⟩ := k.audio
    exact ⟨f', g', by rw [hk, hf]⟩
  all_goals first
    | exact k.a.trans h.a | exact k.x.trans h.x | exact k.y.trans h.y | exact k.sp.trans h.sp
    | exact k.pc.trans h.pc | exact k.p.trans h.p | exact k.pending.trans h.pending
    | exact k.nmi.trans h.nmi | exact k.irqMapper.trans h.irqMapper | exact k.ram.trans h.ram
    | exact k.vram.trans h.vram | exact k.palette.trans h.palette | exact k.prgRam.trans h.prgRam
    | exact k.mirroring.trans h.mirroring | exact k.strobe.trans h.strobe
    | exact k.mapper.trans h.mapper | exact k.oam.trans h.oam | exact k.oamAddr.trans h.oamAddr
    | exact k.ctrl.trans h.ctrl | exact k.mask.trans h.mask | exact k.stage.trans h.stage
    | exact k.scanline.trans h.scanline | exact k.dot.trans h.dot
    | exact k.lineSprites.trans h.lineSprites | exact k.cart.trans h.cart
    | exact k.params.trans h.params | exact k.sched.trans h.sched | exact k.out.trans h.out

/-- A bus read changes only what a read can have an effect on (R65). -/
theorem busRead_keeps (s : State) (addr : Word) : ReadKeeps s (busRead s addr).state := by
  have hs := ReadKeeps.refl s
  unfold busRead
  split
  case h_2 reg =>
    unfold readVideoRegister
    split
    case h_4 => unfold readVramData; dsimp only; split <;> exact { hs with }
    all_goals first | exact hs | exact { hs with }
  case h_6 => exact { hs with audio := ⟨false, false, rfl⟩ }
  case h_7 => unfold readPad0; split <;> exact { hs with }
  case h_8 => unfold readPad1; split <;> exact { hs with }
  case h_9 => unfold readSaveRam; split; · exact hs
              split; · exact { hs with }
              exact hs
  all_goals exact hs

/-- A bus read does not look at PC, and carries it along. -/
theorem busRead_setPc (s : State) (pc addr : Word) :
    busRead (s.setPc pc) addr =
      { value := (busRead s addr).value, state := (busRead s addr).state.setPc pc } := by
  unfold busRead
  cases windowOf addr with
  | video reg =>
    simp only [readVideoRegister, readVramData]
    split <;> try rfl
    by_cases h : (field s.video.v 0 14 : BitVec 14).toNat < 0x3F00 <;> simp [h] <;>
      first | rfl | exact ⟨rfl, rfl⟩
  | saveRam cell =>
    by_cases h : s.cart.battery = false <;> by_cases k : s.params.prgRamEnabled = false <;>
      simp [readSaveRam, h, k]
    rfl
  | pad0 => by_cases h : s.bus.strobe = true <;> simp [readPad0, h] <;> rfl
  | pad1 => by_cases h : s.bus.strobe = true <;> simp [readPad1, h] <;> rfl
  | _ => rfl

theorem readPair_keeps (s : State) (lo hi : Word) : ReadKeeps s (readPair s lo hi).state :=
  (busRead_keeps s lo).trans (busRead_keeps _ hi)

theorem indexed_state (b : Word) (i : Byte) (s : State) : (indexed b i s).state = s := rfl

theorem resolve_keeps (m : Addr) (s : State) : ReadKeeps s (resolve m s).state := by
  cases m with
  | izx a => exact readPair_keeps s _ _
  | izy a => exact readPair_keeps s _ _
  | _ => exact ReadKeeps.refl s

theorem readMem_keeps (m : Addr) (s : State) : ReadKeeps s (readMem m s).state :=
  (resolve_keeps m s).trans (busRead_keeps _ _)

theorem readSrc_keeps (src : Src) (s : State) : ReadKeeps s (readSrc src s).state := by
  cases src with
  | imm v => exact ReadKeeps.refl s
  | mem m => exact readMem_keeps m s

theorem jumpTarget_keeps (t : JumpTarget) (s : State) : ReadKeeps s (jumpTarget t s).state := by
  cases t with
  | abs a => exact ReadKeeps.refl s
  | ind p => exact readPair_keeps s _ _

/-- What every bus write leaves unchanged (R104): the registers and flags, the position and latched
flags of the Video Engine, the parameters, the dividers and the output. `pending` can only grow. -/
structure WriteKeeps (s t : State) : Prop where
  a : t.cpu.a = s.cpu.a
  x : t.cpu.x = s.cpu.x
  y : t.cpu.y = s.cpu.y
  sp : t.cpu.sp = s.cpu.sp
  pc : t.cpu.pc = s.cpu.pc
  p : t.cpu.p = s.cpu.p
  pending : s.cpu.pending ≤ t.cpu.pending
  nmi : t.cpu.nmi = s.cpu.nmi
  irqMapper : t.cpu.irq.mapper = s.cpu.irq.mapper
  stage : t.video.stage = s.video.stage
  scanline : t.video.scanline = s.video.scanline
  dot : t.video.dot = s.video.dot
  lineSprites : t.video.lineSprites = s.video.lineSprites
  cart : t.cart = s.cart
  params : t.params = s.params
  sched : t.sched = s.sched
  out : t.out = s.out

theorem WriteKeeps.refl (s : State) : WriteKeeps s s := by
  constructor <;> rfl

theorem WriteKeeps.trans {s t u : State} (h : WriteKeeps s t) (k : WriteKeeps t u) :
    WriteKeeps s u where
  a := k.a.trans h.a
  x := k.x.trans h.x
  y := k.y.trans h.y
  sp := k.sp.trans h.sp
  pc := k.pc.trans h.pc
  p := k.p.trans h.p
  pending := Nat.le_trans h.pending k.pending
  nmi := k.nmi.trans h.nmi
  irqMapper := k.irqMapper.trans h.irqMapper
  stage := k.stage.trans h.stage
  scanline := k.scanline.trans h.scanline
  dot := k.dot.trans h.dot
  lineSprites := k.lineSprites.trans h.lineSprites
  cart := k.cart.trans h.cart
  params := k.params.trans h.params
  sched := k.sched.trans h.sched
  out := k.out.trans h.out

theorem ReadKeeps.toWrite {s t : State} (h : ReadKeeps s t) : WriteKeeps s t where
  a := h.a
  x := h.x
  y := h.y
  sp := h.sp
  pc := h.pc
  p := h.p
  pending := Nat.le_of_eq h.pending.symm
  nmi := h.nmi
  irqMapper := h.irqMapper
  stage := h.stage
  scanline := h.scanline
  dot := h.dot
  lineSprites := h.lineSprites
  cart := h.cart
  params := h.params
  sched := h.sched
  out := h.out

theorem videoWrite_keeps (s : State) (a : BitVec 14) (v : Byte) : WriteKeeps s (videoWrite s a v) := by
  have hs := WriteKeeps.refl s
  unfold videoWrite
  split
  · exact { hs with }
  · split <;> exact { hs with }

theorem writeVideoRegister_keeps (s : State) (reg : BitVec 3) (v : Byte) :
    WriteKeeps s (writeVideoRegister s reg v) := by
  have hs := WriteKeeps.refl s
  unfold writeVideoRegister
  split
  case h_5 => unfold writeScroll; split <;> exact { hs with }
  case h_6 => unfold writeVramAddress; split <;> exact { hs with }
  case h_7 =>
    have h := videoWrite_keeps s (field s.video.v 0 14) v
    unfold writeVramData
    exact { h with }
  all_goals exact { hs with }

theorem writeChannel_keeps (s : State) (reg : BitVec 5) (v : Byte) :
    WriteKeeps s (writeChannel s reg v) := by
  have hs := WriteKeeps.refl s
  unfold writeChannel
  dsimp only
  split
  case h_5 => split <;> exact { hs with }
  all_goals exact { hs with }

theorem writeFrameControl_keeps (s : State) (v : Byte) : WriteKeeps s (writeFrameControl s v) := by
  have hs := WriteKeeps.refl s
  unfold writeFrameControl
  dsimp only
  split <;> exact { hs with }

theorem writeMapper_keeps (s : State) (addr : Word) (v : Byte) :
    WriteKeeps s (writeMapper s addr v) := by
  have hs := WriteKeeps.refl s
  unfold writeMapper
  dsimp only
  split <;> exact { hs with }

theorem spriteCopy_keeps (page : Byte) (n : Nat) :
    ∀ s, WriteKeeps s (spriteCopy page n s) := by
  induction n with
  | zero => exact fun s => WriteKeeps.refl s
  | succ n ih =>
    intro s
    have hr := (busRead_keeps s (mkWord page (BitVec.ofNat 8 (255 - n)))).toWrite
    refine WriteKeeps.trans ?_ (ih _)
    exact { hr with }

theorem skipCycles_keeps (s : State) (n : Nat) : WriteKeeps s (skipCycles s n) :=
  { WriteKeeps.refl s with pending := Nat.le_add_right _ _ }

/-- A bus write changes only memories, device registers, the sources FRAME and DMC and the pending
counter (R104). -/
theorem busWrite_keeps (s : State) (addr : Word) (v : Byte) : WriteKeeps s (busWrite s addr v) := by
  have hs := WriteKeeps.refl s
  unfold busWrite
  split
  case h_2 => exact writeVideoRegister_keeps s _ v
  case h_3 => exact writeChannel_keeps s _ v
  case h_4 => exact (spriteCopy_keeps v 256 s).trans (skipCycles_keeps _ _)
  case h_6 => unfold writeStrobe; dsimp only; split <;> exact { hs with }
  case h_7 => exact writeFrameControl_keeps s v
  case h_9 => unfold writeSaveRam; split; · exact { hs with }
              exact hs
  case h_10 => exact writeMapper_keeps s addr v
  all_goals exact { hs with }

theorem storeMem_keeps (m : Addr) (f : State → Byte) (s : State) : WriteKeeps s (storeMem m f s) :=
  (resolve_keeps m s).toWrite.trans (busWrite_keeps _ _ _)

theorem charge_keeps (s : State) (n : Nat) : WriteKeeps s (charge s n) :=
  { WriteKeeps.refl s with pending := Nat.le_add_right _ _ }

/-- The stack page lies in work RAM (R71, R105). -/
theorem windowOf_stackAddr (sp : Byte) :
    windowOf (stackAddr sp) = .ram (0x100#11 + sp.setWidth 11) := by
  revert sp; decide

/-- Page zero lies in work RAM (R71, R105). -/
theorem windowOf_zeroPage (a : Byte) : windowOf (zeroPage a) = .ram (a.setWidth 11) := by
  revert a; decide

/-- The stack slot of a stack pointer, as a work RAM cell. -/
def stackCell (sp : Byte) : Nat := 0x100 + sp.toNat

theorem stackCell_eq (sp : Byte) : (0x100#11 + sp.setWidth 11).toNat = stackCell sp := by
  unfold stackCell; revert sp; decide

/-- A push (R23) writes one byte of work RAM and moves SP. -/
theorem push_eq (s : State) (v : Byte) :
    push s v =
      (s.setBus { s.bus with ram := Memory.write s.bus.ram (stackCell s.cpu.sp) v }).setSp
        (s.cpu.sp - 1) := by
  simp only [push, busWrite, windowOf_stackAddr, stackCell_eq]; rfl

/-- A pull (R23) moves SP and reads one byte of work RAM. -/
theorem pull_eq (s : State) :
    pull s =
      { value := Memory.read s.bus.ram (stackCell (s.cpu.sp + 1))
        state := s.setSp (s.cpu.sp + 1) } := by
  simp only [pull, busRead, State.setSp_sp, windowOf_stackAddr, stackCell_eq]; rfl

/-- The vectors lie in the ROM window, so reading one changes nothing (R71, R110). -/
theorem read16_vector (s : State) (k : InterruptKind) :
    read16 s k.vector =
      { value :=
          mkWord (readPrg s.cart s.mapper.regs (k.vector + 1)) (readPrg s.cart s.mapper.regs k.vector)
        state := s } := by
  cases k <;> rfl

end Sys2Proof.Machine
end

