-- ==== Sys2Proof/Laws/Audio.lean ====
section
/-! SUPPORT. What a step of the Audio Engine answers (R501), and what its parts leave of the frame
sequencer. -/

namespace Sys2Proof.Machine

/-- A step that answers a next state finishes what its timers and its sample reader leave. -/
theorem audioStep_next {s t : State} (h : audioStep s = .next t) :
    ∃ u, dmcReader (s.setAudio (clockTimers s.audio s.cart.region)) = .next u ∧
      t = finishAudioStep u := by
  unfold audioStep at h
  split at h
  · rename_i hu
    cases h
    exact ⟨_, hu, rfl⟩
  · cases h
  · cases h

@[simp] theorem clockTimers_frame (a : Audio) (r : Region) : (clockTimers a r).frame = a.frame := by
  unfold clockTimers
  dsimp only
  split <;> rfl

theorem fetchSample_keeps (s : State) :
    let u := (busRead (skipCycles s s.params.dmcStall) s.audio.dmc.curAddr).state
    (fetchSample s).audio.frame = u.audio.frame ∧ (fetchSample s).cart = u.cart ∧
      (fetchSample s).cpu.irq.frame = u.cpu.irq.frame := by
  unfold fetchSample endOfSample
  dsimp only
  split
  · split
    · exact ⟨rfl, rfl, rfl⟩
    · split <;> exact ⟨rfl, rfl, rfl⟩
  · exact ⟨rfl, rfl, rfl⟩

/-- The sample reader leaves the frame sequencer alone but for its interrupt flag, which a read of the
status register at the cursor would clear, and the cartridge. -/
theorem dmcReader_keeps {s u : State} (h : dmcReader s = .next u) :
    (∃ f, u.audio.frame = { s.audio.frame with irqFlag := f }) ∧ u.cart = s.cart := by
  unfold dmcReader at h
  dsimp only at h
  split at h
  · split at h
    · cases h
    · cases h
      have k := busRead_keeps (skipCycles s s.params.dmcStall) s.audio.dmc.curAddr
      obtain ⟨f, g, ha⟩ := k.audio
      have e := fetchSample_keeps s
      dsimp only at e
      rw [e.1, e.2.1, ha]
      exact ⟨⟨f, rfl⟩, k.cart⟩
  · cases h
    exact ⟨⟨s.audio.frame.irqFlag, rfl⟩, rfl⟩

end Sys2Proof.Machine
end

