-- ==== Sys2Proof/Laws/Frames.lean ====
section
/-! SUPPORT. What the reads of an instruction keep, in the terms of Safety.lean, and the two shapes most
results have: an instruction that reads one operand, and an instruction of one byte. -/

namespace Sys2Proof.Machine

theorem SameOutside.refl (s : State) : SameOutside s s := ⟨rfl, rfl, rfl, rfl, rfl, rfl, rfl, rfl, rfl⟩

theorem SameOutside.trans {s t u : State} (h : SameOutside s t) (k : SameOutside t u) :
    SameOutside s u :=
  ⟨k.bus.trans h.bus, k.mapper.trans h.mapper, k.video.trans h.video, k.audio.trans h.audio,
    k.sched.trans h.sched, k.cart.trans h.cart, k.params.trans h.params, k.draws.trans h.draws,
    k.out.trans h.out⟩

/-- Writing the processor's registers keeps everything outside them. -/
theorem SameOutside.ofCpu (s : State) (c : Cpu) : SameOutside s { s with cpu := c } :=
  ⟨rfl, rfl, rfl, rfl, rfl, rfl, rfl, rfl, rfl⟩

theorem SameOutside.plainMemory {s t : State} (h : SameOutside s t) (addr : Word) :
    plainMemory t addr = plainMemory s addr := by
  simp only [Machine.plainMemory, h.cart, h.params]

/-- What a bus read answers does not depend on the processor's registers. -/
theorem SameOutside.busRead_value {u t : State} (h : SameOutside u t) (addr : Word) :
    (busRead t addr).value = (busRead u addr).value := by
  obtain ⟨c, b, m, v, a, sc, ca, pa, dr, o⟩ := u
  obtain ⟨c', b', m', v', a', sc', ca', pa', dr', o'⟩ := t
  obtain ⟨h1, h2, h3, h4, h5, h6, h7, h8, h9⟩ := h
  simp only at h1 h2 h3 h4 h5 h6 h7 h8 h9
  subst h1 h2 h3 h4 h5 h6 h7 h8 h9
  unfold busRead
  split
  case h_2 =>
    unfold readVideoRegister
    split
    case h_4 => simp only [readVramData]; split <;> rfl
    all_goals rfl
  case h_7 => simp only [readPad0]; split <;> rfl
  case h_8 => simp only [readPad1]; split <;> rfl
  case h_9 => simp only [readSaveRam]; split; · rfl
              split <;> rfl
  all_goals rfl

/-- A read keeps every byte of plain memory (R65). -/
theorem ReadKeeps.byteKept {s t : State} (h : ReadKeeps s t) (addr : Word) : ByteKept s t addr := by
  intro hp
  unfold plainMemory at hp
  unfold busRead
  split at hp <;> rename_i hw <;> simp only [hw] at *
  · exact congrArg (fun m => Memory.read m _) h.ram
  · simp only [h.cart, h.mapper]
  · simp only [readSaveRam, h.cart, h.params, h.prgRam]
    simp only [Bool.and_eq_true] at hp
    simp [hp]
  all_goals simp at hp

/-- A read keeps every byte of every memory (R65). -/
theorem ReadKeeps.memoryKept {s t : State} (h : ReadKeeps s t) : MemoryKept s t where
  processor := h.byteKept
  video addr := by simp only [videoRead, h.cart, h.mapper, h.vram, h.palette, h.mirroring]
  oam n := by rw [h.oam]

/-- A read changes no processor register but the asserted sources (R65). -/
theorem ReadKeeps.cpu_eq {s t : State} (h : ReadKeeps s t) :
    t.cpu = { s.cpu with irq := t.cpu.irq } := by
  obtain ⟨⟨⟩⟩ := s
  obtain ⟨⟨⟩⟩ := t
  have h1 := h.a
  have h2 := h.x
  have h3 := h.y
  have h4 := h.sp
  have h5 := h.pc
  have h6 := h.p
  have h7 := h.pending
  have h8 := h.nmi
  simp at *
  simp [*]

theorem MemoryKept.trans_same {s u t : State} (h : MemoryKept s u) (k : SameOutside u t) :
    MemoryKept s t where
  processor addr hp := (k.busRead_value addr).trans (h.processor addr hp)
  video addr := by rw [← h.video addr]; simp only [videoRead, k.cart, k.mapper, k.bus]
  oam n := by rw [← h.oam n, k.video]

/-- A register effect, from what the operand's reads keep. -/
theorem RegisterEffect.of {s u t : State} {c : Cpu} (k : ReadKeeps s u) (hc : t.cpu = c)
    (ho : SameOutside u t) : RegisterEffect s u t c :=
  ⟨hc, ho, k.memoryKept.trans_same ho⟩

/-- An instruction of the read class, from its meaning on the state after the operand's reads. -/
theorem ReadEffect.of {mk : Src → Instr} {after : Cpu → Byte → Cpu}
    (h : ∀ src s, ∃ t, exec (mk src) s = .next t ∧ SameOutside (readSrc src s).state t ∧
      t.cpu =
        { after (readSrc src s).state.cpu (readSrc src s).value with
          irq := (readSrc src s).state.cpu.irq
          pending :=
            (readSrc src s).state.cpu.pending + (readCost src (readSrc src s).crossed - 1) })
    (hf : ∀ c i m, { after { c with irq := i } m with irq := i } = { after c m with irq := i }) :
    ReadEffect mk after := by
  intro src s
  obtain ⟨t, ht, ho, hc⟩ := h src s
  have k := readSrc_keeps src s
  refine ⟨t, ht, .of k ?_ ho⟩
  rw [hc]
  have e := hf s.cpu (readSrc src s).state.cpu.irq (readSrc src s).value
  rw [← k.cpu_eq] at e
  rw [k.pending]
  injection e
  simp only [*]

/-- An instruction of one byte, from its meaning. -/
theorem ImpliedEffect.of {op : Byte} {i : Instr} {n : Nat} {after : Cpu → Cpu} (ho : OneByte op i n)
    (h : ∀ s, ∃ t, exec i s = .next t ∧ SameOutside s t ∧
      t.cpu = { after s.cpu with pending := s.cpu.pending + (n - 1) }) :
    ImpliedEffect op i n after :=
  ⟨ho, fun s => by
    obtain ⟨t, ht, hs, hc⟩ := h s
    exact ⟨t, ht, .of (.refl s) hc hs⟩⟩

end Sys2Proof.Machine
end

