-- ==== Sys2Proof/Laws/PerInstr.lean ====
section
/-! SUPPORT. Statements made of every instruction, one lemma a constructor. -/

namespace Sys2Proof.Laws.EncodingLength

/-- A well-formed instruction's encoding is its opcode byte and as many bytes after it as the opcode's
format has (R160, R176). -/
def Statement (i : Instr) : Prop :=
  i.wf = true → ∃ op rest, encode i = op :: rest ∧ (formOf op).length = (encode i).length

theorem lda (src : Src) : Statement (.lda src) := by
  intro h
  rcases src with v | m
  · exact ⟨_, _, rfl, rfl⟩
  · cases m <;> first | exact ⟨_, _, rfl, rfl⟩ | cases h

theorem ldx (src : Src) : Statement (.ldx src) := by
  intro h
  rcases src with v | m
  · exact ⟨_, _, rfl, rfl⟩
  · cases m <;> first | exact ⟨_, _, rfl, rfl⟩ | cases h

theorem ldy (src : Src) : Statement (.ldy src) := by
  intro h
  rcases src with v | m
  · exact ⟨_, _, rfl, rfl⟩
  · cases m <;> first | exact ⟨_, _, rfl, rfl⟩ | cases h

theorem sta (dst : Addr) : Statement (.sta dst) := by
  intro h
  cases dst <;> first | exact ⟨_, _, rfl, rfl⟩ | cases h

theorem stx (dst : Addr) : Statement (.stx dst) := by
  intro h
  cases dst <;> first | exact ⟨_, _, rfl, rfl⟩ | cases h

theorem sty (dst : Addr) : Statement (.sty dst) := by
  intro h
  cases dst <;> first | exact ⟨_, _, rfl, rfl⟩ | cases h

theorem tax : Statement .tax := fun _ => ⟨_, _, rfl, rfl⟩

theorem tay : Statement .tay := fun _ => ⟨_, _, rfl, rfl⟩

theorem txa : Statement .txa := fun _ => ⟨_, _, rfl, rfl⟩

theorem tya : Statement .tya := fun _ => ⟨_, _, rfl, rfl⟩

theorem tsx : Statement .tsx := fun _ => ⟨_, _, rfl, rfl⟩

theorem txs : Statement .txs := fun _ => ⟨_, _, rfl, rfl⟩

theorem pha : Statement .pha := fun _ => ⟨_, _, rfl, rfl⟩

theorem php : Statement .php := fun _ => ⟨_, _, rfl, rfl⟩

theorem pla : Statement .pla := fun _ => ⟨_, _, rfl, rfl⟩

theorem plp : Statement .plp := fun _ => ⟨_, _, rfl, rfl⟩

theorem adc (src : Src) : Statement (.adc src) := by
  intro h
  rcases src with v | m
  · exact ⟨_, _, rfl, rfl⟩
  · cases m <;> first | exact ⟨_, _, rfl, rfl⟩ | cases h

theorem sbc (src : Src) : Statement (.sbc src) := by
  intro h
  rcases src with v | m
  · exact ⟨_, _, rfl, rfl⟩
  · cases m <;> first | exact ⟨_, _, rfl, rfl⟩ | cases h

theorem cmp (src : Src) : Statement (.cmp src) := by
  intro h
  rcases src with v | m
  · exact ⟨_, _, rfl, rfl⟩
  · cases m <;> first | exact ⟨_, _, rfl, rfl⟩ | cases h

theorem cpx (src : Src) : Statement (.cpx src) := by
  intro h
  rcases src with v | m
  · exact ⟨_, _, rfl, rfl⟩
  · cases m <;> first | exact ⟨_, _, rfl, rfl⟩ | cases h

theorem cpy (src : Src) : Statement (.cpy src) := by
  intro h
  rcases src with v | m
  · exact ⟨_, _, rfl, rfl⟩
  · cases m <;> first | exact ⟨_, _, rfl, rfl⟩ | cases h

theorem inc (dst : RmwAddr) : Statement (.inc dst) := by
  intro _
  cases dst <;> exact ⟨_, _, rfl, rfl⟩

theorem inx : Statement .inx := fun _ => ⟨_, _, rfl, rfl⟩

theorem iny : Statement .iny := fun _ => ⟨_, _, rfl, rfl⟩

theorem dec (dst : RmwAddr) : Statement (.dec dst) := by
  intro _
  cases dst <;> exact ⟨_, _, rfl, rfl⟩

theorem dex : Statement .dex := fun _ => ⟨_, _, rfl, rfl⟩

theorem dey : Statement .dey := fun _ => ⟨_, _, rfl, rfl⟩

theorem and (src : Src) : Statement (.and src) := by
  intro h
  rcases src with v | m
  · exact ⟨_, _, rfl, rfl⟩
  · cases m <;> first | exact ⟨_, _, rfl, rfl⟩ | cases h

theorem ora (src : Src) : Statement (.ora src) := by
  intro h
  rcases src with v | m
  · exact ⟨_, _, rfl, rfl⟩
  · cases m <;> first | exact ⟨_, _, rfl, rfl⟩ | cases h

theorem eor (src : Src) : Statement (.eor src) := by
  intro h
  rcases src with v | m
  · exact ⟨_, _, rfl, rfl⟩
  · cases m <;> first | exact ⟨_, _, rfl, rfl⟩ | cases h

theorem bit (src : Addr) : Statement (.bit src) := by
  intro h
  cases src <;> first | exact ⟨_, _, rfl, rfl⟩ | cases h

theorem asl (dst : ShiftDst) : Statement (.asl dst) := by
  intro _
  rcases dst with _ | m
  · exact ⟨_, _, rfl, rfl⟩
  · cases m <;> exact ⟨_, _, rfl, rfl⟩

theorem lsr (dst : ShiftDst) : Statement (.lsr dst) := by
  intro _
  rcases dst with _ | m
  · exact ⟨_, _, rfl, rfl⟩
  · cases m <;> exact ⟨_, _, rfl, rfl⟩

theorem rol (dst : ShiftDst) : Statement (.rol dst) := by
  intro _
  rcases dst with _ | m
  · exact ⟨_, _, rfl, rfl⟩
  · cases m <;> exact ⟨_, _, rfl, rfl⟩

theorem ror (dst : ShiftDst) : Statement (.ror dst) := by
  intro _
  rcases dst with _ | m
  · exact ⟨_, _, rfl, rfl⟩
  · cases m <;> exact ⟨_, _, rfl, rfl⟩

theorem bcc (off : Byte) : Statement (.bcc off) := fun _ => ⟨_, _, rfl, rfl⟩

theorem bcs (off : Byte) : Statement (.bcs off) := fun _ => ⟨_, _, rfl, rfl⟩

theorem beq (off : Byte) : Statement (.beq off) := fun _ => ⟨_, _, rfl, rfl⟩

theorem bne (off : Byte) : Statement (.bne off) := fun _ => ⟨_, _, rfl, rfl⟩

theorem bmi (off : Byte) : Statement (.bmi off) := fun _ => ⟨_, _, rfl, rfl⟩

theorem bpl (off : Byte) : Statement (.bpl off) := fun _ => ⟨_, _, rfl, rfl⟩

theorem bvc (off : Byte) : Statement (.bvc off) := fun _ => ⟨_, _, rfl, rfl⟩

theorem bvs (off : Byte) : Statement (.bvs off) := fun _ => ⟨_, _, rfl, rfl⟩

theorem jmp (target : JumpTarget) : Statement (.jmp target) := by
  intro _
  cases target <;> exact ⟨_, _, rfl, rfl⟩

theorem jsr (target : Word) : Statement (.jsr target) := fun _ => ⟨_, _, rfl, rfl⟩

theorem rts : Statement .rts := fun _ => ⟨_, _, rfl, rfl⟩

theorem clc : Statement .clc := fun _ => ⟨_, _, rfl, rfl⟩

theorem sec : Statement .sec := fun _ => ⟨_, _, rfl, rfl⟩

theorem cli : Statement .cli := fun _ => ⟨_, _, rfl, rfl⟩

theorem sei : Statement .sei := fun _ => ⟨_, _, rfl, rfl⟩

theorem clv : Statement .clv := fun _ => ⟨_, _, rfl, rfl⟩

theorem cld : Statement .cld := fun _ => ⟨_, _, rfl, rfl⟩

theorem sed : Statement .sed := fun _ => ⟨_, _, rfl, rfl⟩

theorem brk : Statement .brk := fun _ => ⟨_, _, rfl, rfl⟩

theorem rti : Statement .rti := fun _ => ⟨_, _, rfl, rfl⟩

theorem nop : Statement .nop := fun _ => ⟨_, _, rfl, rfl⟩

/-- No opcode of R182's list has a row in R181's table. -/
theorem unrecognized_have_no_row :
    (unrecognizedOpcodes.all fun op => (opRow op).isNone) = true := by decide +kernel

theorem unrecognized (op : Byte) : Statement (.unrecognized op) := by
  intro h
  have hop : op ∈ unrecognizedOpcodes := by simpa [Instr.wf] using h
  have hr := List.all_eq_true.mp unrecognized_have_no_row op hop
  have hf : formOf op = .f1 (.unrecognized op) := by
    unfold formOf
    split
    · simp_all
    · rfl
  have he : encode (.unrecognized op) = [op] := by simp [encode, hop]
  exact ⟨op, [], he, by rw [hf, he]; rfl⟩

end Sys2Proof.Laws.EncodingLength
end

