-- ==== Sys2Proof/Laws/Stack.lean ====
section
/-! SUPPORT. The stack operations of Ops.lean (R23): what a pull answers, what a push leaves, and the
interrupt sequence and its return as one state each. -/

namespace Sys2Proof.Machine

theorem busRead_stackAddr (s : State) (sp : Byte) :
    busRead s (stackAddr sp) = { value := Memory.read s.bus.ram (stackCell sp), state := s } := by
  simp only [busRead, windowOf_stackAddr, stackCell_eq]

/-- The first slot is where SP points. -/
theorem stackSlot_zero (s : State) : stackSlot s 0 = stackAddr s.cpu.sp :=
  congrArg stackAddr (BitVec.sub_zero _)

@[simp] theorem setSp_setSp (s : State) (m n : Byte) : (s.setSp m).setSp n = s.setSp n := rfl

@[simp] theorem pull_state (s : State) : (pull s).state = s.setSp (s.cpu.sp + 1) := by rw [pull_eq]

theorem pull_value (s : State) :
    (pull s).value = (busRead s (stackAddr (s.cpu.sp + 1))).value := by
  rw [pull_eq, busRead_stackAddr]

/-- Pulling a word (R318, R341): two bytes, low byte first. -/
theorem pullWord_eq (s : State) :
    pullWord s =
      { value :=
          mkWord (busRead s (stackAddr (s.cpu.sp + 2))).value
            (busRead s (stackAddr (s.cpu.sp + 1))).value
        state := s.setSp (s.cpu.sp + 2) } := by
  have h : s.cpu.sp + 1 + 1 = s.cpu.sp + 2 := by rw [BitVec.add_assoc]; rfl
  simp only [pullWord, pull_state, pull_value, State.setSp_sp, h, busRead_stackAddr, State.setSp_bus,
    setSp_setSp]

/-- Pulling the flags (R26): SP moves and the six flags come from the byte. -/
theorem pullFlags_eq (s : State) :
    pullFlags s =
      (s.setSp (s.cpu.sp + 1)).setP
        (Flags.pulled (busRead s (stackAddr (s.cpu.sp + 1))).value) := by
  simp only [pullFlags, pull_state, pull_value]

/-- The return from an interrupt (R341) as one state: SP up by 3, the flags and PC from the stack. -/
theorem returnFromInterrupt_eq (s : State) :
    returnFromInterrupt s =
      ((s.setSp (s.cpu.sp + 3)).setP (Flags.pulled (busRead s (stackAddr (s.cpu.sp + 1))).value)).setPc
        (mkWord (busRead s (stackAddr (s.cpu.sp + 3))).value
          (busRead s (stackAddr (s.cpu.sp + 2))).value) := by
  have h1 : s.cpu.sp + 1 + 1 = s.cpu.sp + 2 := by rw [BitVec.add_assoc]; rfl
  have h2 : s.cpu.sp + 1 + 2 = s.cpu.sp + 3 := by rw [BitVec.add_assoc]; rfl
  simp only [returnFromInterrupt, pullWord_eq, pullFlags_eq, State.setP_sp, State.setSp_sp, h1, h2,
    busRead_stackAddr, State.setP_bus, State.setSp_bus]
  generalize s.cpu.sp + 3 = n
  rfl

/-- Two stack slots are the same cell only if the stack pointers are equal. -/
theorem stackCell_inj {a b : Byte} (h : stackCell a = stackCell b) : a = b := by
  apply BitVec.eq_of_toNat_eq
  unfold stackCell at h
  omega

@[simp] theorem push_cpu (s : State) (v : Byte) :
    (push s v).cpu = { s.cpu with sp := s.cpu.sp - 1 } := by rw [push_eq]; rfl

theorem push_ram (s : State) (v : Byte) :
    (push s v).bus.ram = Memory.write s.bus.ram (stackCell s.cpu.sp) v := by rw [push_eq]; rfl

theorem push_outside (s : State) (v : Byte) : OnlyRamOutside s (push s v) := by
  rw [push_eq]
  exact ⟨rfl, rfl, rfl, rfl, rfl, rfl, rfl, rfl, rfl⟩

/-- A read of plain memory after a push: the byte pushed, at the slot, and every other as before. -/
theorem busRead_push (s : State) (v sp : Byte) :
    (busRead (push s v) (stackAddr sp)).value =
      if sp = s.cpu.sp then v else (busRead s (stackAddr sp)).value := by
  rw [busRead_stackAddr, busRead_stackAddr, push_ram, Memory.read_write]
  by_cases h : sp = s.cpu.sp
  · simp [h]
  · have : stackCell sp ≠ stackCell s.cpu.sp := fun e => h (stackCell_inj e)
    simp [h, this]

/-- A push keeps every byte of plain memory but the slot's. -/
theorem byteKept_push (s : State) (v : Byte) (addr : Word)
    (h : storeTouches (stackAddr s.cpu.sp) addr = false) : ByteKept s (push s v) addr := by
  intro hp
  unfold plainMemory at hp
  unfold storeTouches at h
  rw [windowOf_stackAddr] at h
  unfold busRead
  split at hp <;> rename_i hw <;> simp only [hw] at *
  · rename_i cell
    rw [push_ram, Memory.read_write_other]
    rw [← stackCell_eq]
    intro e
    simp at h
    exact h (BitVec.eq_of_toNat_eq e.symm)
  · rw [push_eq]; rfl
  · simp only [Bool.and_eq_true] at hp
    rw [push_eq]
    simp [readSaveRam, hp]
  all_goals simp at hp

theorem OnlyRamOutside.trans {s t u : State} (h : OnlyRamOutside s t) (k : OnlyRamOutside t u) :
    OnlyRamOutside s u where
  bus := by
    have e1 := h.bus
    have e2 := k.bus
    simp only [State.setBus_bus] at *
    rw [e2, e1]
  mapper := k.mapper.trans h.mapper
  video := k.video.trans h.video
  audio := k.audio.trans h.audio
  sched := k.sched.trans h.sched
  cart := k.cart.trans h.cart
  params := k.params.trans h.params
  draws := k.draws.trans h.draws
  out := k.out.trans h.out

/-- The interrupt sequence (R404): three pushes, then I and PC; the vector is read from ROM, which no push
changes. -/
theorem takeInterrupt_eq (k : InterruptKind) (s : State) :
    takeInterrupt k s =
      ((push (push (push s (hiByte s.cpu.pc)) (loByte s.cpu.pc)) (s.cpu.p.pushed k.breakBit)).setP
          { s.cpu.p with i := true }).setPc
        (mkWord (readPrg s.cart s.mapper.regs (k.vector + 1))
          (readPrg s.cart s.mapper.regs k.vector)) := by
  simp only [takeInterrupt, pushWord, push_cpu, read16_vector]
  simp only [push_eq]
  rfl

end Sys2Proof.Machine
end

