-- ==== Sys2Proof/Laws/Store.lean ====
section
/-! SUPPORT. What a store through the bus can do (R104): the bytes it leaves alone, the registers it
changes, and the effect of an instruction that stores. -/

namespace Sys2Proof.Machine

/-- The plain memory of the processor space has the same contents in `t` as in `s`. -/
structure MemSame (s t : State) : Prop where
  ram : t.bus.ram = s.bus.ram
  prgRam : t.bus.prgRam = s.bus.prgRam
  regs : t.mapper.regs = s.mapper.regs
  cart : t.cart = s.cart
  params : t.params = s.params

theorem MemSame.byteKept {s t : State} (h : MemSame s t) (addr : Word) : ByteKept s t addr := by
  intro hp
  unfold plainMemory at hp
  unfold busRead
  split at hp <;> rename_i hw <;> simp only [hw] at *
  · exact congrArg (fun m => Memory.read m _) h.ram
  · simp only [h.cart, h.regs]
  · simp only [readSaveRam, h.cart, h.params, h.prgRam]
    simp only [Bool.and_eq_true] at hp
    simp [hp]
  all_goals simp at hp

/-- Every memory but sprite memory has the same contents in `t` as in `s`. -/
structure MemAll (s t : State) : Prop where
  ram : t.bus.ram = s.bus.ram
  vram : t.bus.vram = s.bus.vram
  palette : t.bus.palette = s.bus.palette
  prgRam : t.bus.prgRam = s.bus.prgRam
  mirroring : t.bus.mirroring = s.bus.mirroring
  mapper : t.mapper = s.mapper
  cart : t.cart = s.cart
  params : t.params = s.params

theorem MemAll.video {s t : State} (h : MemAll s t) (addr) : videoRead t addr = videoRead s addr := by
  simp only [videoRead, h.cart, h.mapper, h.vram, h.palette, h.mirroring]
theorem MemAll.mem {s t : State} (h : MemAll s t) : MemSame s t := ⟨h.ram, h.prgRam, by rw [h.mapper], h.cart, h.params⟩
theorem MemAll.refl (s : State) : MemAll s s := ⟨rfl, rfl, rfl, rfl, rfl, rfl, rfl, rfl⟩

theorem MemAll.frame {s t : State} (ea : Word) (h : MemAll s t) (ho : windowOf ea ≠ .video 4 → windowOf ea ≠ .spriteDma → t.video.oam = s.video.oam) : StoreFrame ea s t :=
  ⟨fun a _ => h.mem.byteKept a, fun _ _ a => h.video a, fun h1 h2 n => by rw [ho h1 h2]⟩

theorem spriteCopy_mem (page : Byte) (n : Nat) : ∀ s, MemAll s (spriteCopy page n s) := by
  induction n with
  | zero => exact fun s => .refl s
  | succ n ih =>
    intro s
    have hr := busRead_keeps s (mkWord page (BitVec.ofNat 8 (255 - n)))
    have h2 := ih ((busRead s (mkWord page (BitVec.ofNat 8 (255 - n)))).state.setVideo { (busRead s (mkWord page (BitVec.ofNat 8 (255 - n)))).state.video with oam := Memory.write (busRead s (mkWord page (BitVec.ofNat 8 (255 - n)))).state.video.oam ((busRead s (mkWord page (BitVec.ofNat 8 (255 - n)))).state.video.oamAddr + (BitVec.ofNat 8 (255 - n))).toNat (busRead s (mkWord page (BitVec.ofNat 8 (255 - n)))).value })
    exact ⟨h2.ram.trans hr.ram, h2.vram.trans hr.vram, h2.palette.trans hr.palette, h2.prgRam.trans hr.prgRam, h2.mirroring.trans hr.mirroring, h2.mapper.trans hr.mapper, h2.cart.trans hr.cart, h2.params.trans hr.params⟩

theorem writeVideoRegister_mem (s : State) (reg : BitVec 3) (v : Byte) (h : reg ≠ 7) : MemAll s (writeVideoRegister s reg v) := by
  unfold writeVideoRegister
  split
  case h_7 hr => exact absurd (BitVec.eq_of_toNat_eq hr) h
  all_goals constructor <;> rfl

theorem busWrite_frame (s : State) (ea : Word) (v : Byte) : StoreFrame ea s (busWrite s ea v) := by
  unfold busWrite
  split <;> rename_i hw
  · rename_i cell
    refine ⟨fun a ht hp => ?_, fun _ _ a => rfl, fun _ _ n => rfl⟩
    unfold storeTouches at ht; rw [hw] at ht
    unfold plainMemory at hp
    unfold busRead
    split at hp <;> rename_i hw' <;> simp only [hw'] at *
    · rename_i c'
      simp only [State.setBus_bus]
      rw [Memory.read_write_other]
      intro e; simp at ht; exact ht (BitVec.eq_of_toNat_eq e.symm)
    · rfl
    · simp only [Bool.and_eq_true] at hp; simp [readSaveRam, hp]
    all_goals simp at hp
  · rename_i reg
    by_cases h7 : reg = 7
    · subst h7
      have hv : ∀ s' : State, s' = videoWrite s (field s.video.v 0 14) v → MemSame s s' ∧ s'.video.oam = s.video.oam := by
        intro s' e; subst e
        unfold videoWrite; split
        · refine ⟨⟨rfl, rfl, ?_, rfl, rfl⟩, rfl⟩
          simp only [writeChr, State.setMapper_mapper]; split <;> rfl
        · split <;> exact ⟨⟨rfl, rfl, rfl, rfl, rfl⟩, rfl⟩
      obtain ⟨h1, h2⟩ := hv _ rfl
      refine ⟨fun a _ => ?_, fun h => absurd hw h, fun _ _ n => ?_⟩
      · apply MemSame.byteKept
        exact ⟨h1.ram, h1.prgRam, h1.regs, h1.cart, h1.params⟩
      · show Memory.read (writeVramData s v).video.oam n = _
        simp only [writeVramData, State.setVideo_video, h2]
    · apply (writeVideoRegister_mem s reg v h7).frame
      intro h4 _
      unfold writeVideoRegister
      split
      case h_4 hr => exact absurd (by rw [hw]; congr 1; exact BitVec.eq_of_toNat_eq hr) h4
      case h_7 hr => exact absurd (BitVec.eq_of_toNat_eq hr) h7
      case h_5 => simp only [writeScroll]; split <;> rfl
      case h_6 => simp only [writeVramAddress]; split <;> rfl
      all_goals rfl
  · apply MemAll.frame
    · unfold writeChannel; dsimp only; split
      case h_5 => split <;> constructor <;> rfl
      all_goals constructor <;> rfl
    · intro _ _
      unfold writeChannel; dsimp only; split
      case h_5 => split <;> rfl
      all_goals rfl
  · apply MemAll.frame
    · have := spriteCopy_mem v 256 s
      exact ⟨this.ram, this.vram, this.palette, this.prgRam, this.mirroring, this.mapper, this.cart, this.params⟩
    · intro _ h; exact absurd hw h
  · apply MemAll.frame
    · constructor <;> rfl
    · intros; rfl
  · apply MemAll.frame
    · unfold writeStrobe; dsimp only; split <;> constructor <;> rfl
    · intros; unfold writeStrobe; dsimp only; split <;> rfl
  · apply MemAll.frame
    · unfold writeFrameControl; dsimp only; split <;> constructor <;> rfl
    · intros; unfold writeFrameControl; dsimp only; split <;> rfl
  · exact MemAll.frame _ (.refl s) fun _ _ => rfl
  · rename_i cell
    unfold writeSaveRam
    split
    · refine ⟨fun a ht hp => ?_, fun _ _ a => rfl, fun _ _ n => rfl⟩
      unfold storeTouches at ht; rw [hw] at ht
      unfold plainMemory at hp
      unfold busRead
      split at hp <;> rename_i hw' <;> simp only [hw'] at *
      · rfl
      · rfl
      · simp only [Bool.and_eq_true] at hp
        simp [readSaveRam, hp]
        rw [Memory.read_write_other]
        intro e; simp at ht; exact ht (BitVec.eq_of_toNat_eq e.symm)
      all_goals simp at hp
    · exact MemAll.frame _ (.refl s) fun _ _ => rfl
  · refine ⟨fun a ht hp => ?_, fun _ h => absurd hw h, fun _ _ n => ?_⟩
    · unfold storeTouches at ht; rw [hw] at ht
      unfold plainMemory at hp
      unfold busRead
      unfold writeMapper
      split at hp <;> rename_i hw' <;> simp only [hw'] at *
      · split <;> rfl
      · simp at ht
      · split <;> simp [readSaveRam] 
        · simp only [Bool.and_eq_true] at hp; simp [hp]
        · simp only [Bool.and_eq_true] at hp; simp [hp]
      all_goals simp at hp
    · unfold writeMapper; dsimp only; split <;> rfl

theorem window_dma (ea : Word) : windowOf ea = .spriteDma ↔ ea = 0x4014#16 := by
  constructor
  · unfold windowOf
    dsimp only
    intro h
    repeat' split at h
    all_goals try cases h
    rename_i h1 h2 h3 h4
    exact BitVec.eq_of_toNat_eq h4
  · rintro rfl; rfl

theorem busWrite_cpu (s : State) (ea : Word) (v : Byte) : (busWrite s ea v).cpu = { s.cpu with irq := (busWrite s ea v).cpu.irq, pending := s.cpu.pending + storeStall s ea } := by
  have hk := busWrite_keeps s ea v
  have hp : (busWrite s ea v).cpu.pending = s.cpu.pending + storeStall s ea := by
    by_cases h : ea = 0x4014#16
    · subst h
      show (spriteDma s v).cpu.pending = _
      have : ∀ n s, (spriteCopy v n s).cpu.pending = s.cpu.pending := by
        intro n; induction n with
        | zero => intro s; rfl
        | succ n ih => intro s; simp only [spriteCopy, ih, State.setVideo_cpu, (busRead_keeps s _).pending]
      simp only [spriteDma, skipCycles, State.setPending_pending, this, (spriteCopy_keeps v 256 s).params, storeStall, if_true]
    · have hw : windowOf ea ≠ .spriteDma := fun e => h ((window_dma ea).1 e)
      simp only [storeStall, h, if_false, Nat.add_zero]
      unfold busWrite
      split <;> rename_i hw
      · rfl
      · unfold writeVideoRegister writeVramData videoWrite
        split <;> first | rfl | (dsimp only; split <;> first | rfl | (split <;> rfl))
      · unfold writeChannel; dsimp only; split
        case h_5 => split <;> rfl
        all_goals rfl
      · contradiction
      · rfl
      · unfold writeStrobe; dsimp only; split <;> rfl
      · unfold writeFrameControl; dsimp only; split <;> rfl
      · rfl
      · unfold writeSaveRam; split <;> rfl
      · unfold writeMapper; dsimp only; split <;> rfl
  obtain ⟨⟨⟩⟩ := s
  generalize busWrite _ ea v = t at *
  obtain ⟨⟨⟩⟩ := t
  have h1 := hk.a; have h2 := hk.x; have h3 := hk.y; have h4 := hk.sp; have h5 := hk.pc; have h6 := hk.p
  have h8 := hk.nmi
  simp at *
  simp [*]

theorem ByteKept.trans {s t u : State} {a : Word} (h : ByteKept s t a) (k : ByteKept t u a) (hp : t.cart = s.cart ∧ t.params = s.params) : ByteKept s u a := by
  intro hpl
  rw [← h hpl]
  exact k (by rw [← hpl]; simp only [plainMemory, hp])

theorem ram_lands (s : State) (ea : Word) (v : Byte) (cell) (h : windowOf ea = .ram cell) : (busRead (busWrite s ea v) ea).value = v := by
  simp only [busRead, busWrite, h, State.setBus_bus, Memory.read_write_same]

/-- What a store after an operand's reads does, once: it suffices to say the registers. -/
theorem StoreEffect.of {s u t : State} {ea v c} (k : ReadKeeps s u) (hc : t.cpu = c) (ho : SameOutside (busWrite u ea v) t) :
    StoreEffect s u t ea v c := by
  have hf := busWrite_frame u ea v
  refine ⟨hc, ho, ⟨fun a ht => ?_, fun h1 h2 a => ?_, fun h1 h2 n => ?_⟩, fun cell h => ?_⟩
  · have := (k.byteKept a).trans (hf.processor a ht) ⟨k.cart, k.params⟩
    intro hp
    rw [ho.busRead_value, this hp]
  · rw [← k.memoryKept.video, ← hf.video h1 h2]
    simp only [videoRead, ho.cart, ho.mapper, ho.bus]
  · rw [← k.memoryKept.oam, ← hf.oam h1 h2, ho.video]
  · rw [ho.busRead_value, ram_lands _ _ _ _ h]
end Sys2Proof.Machine
end

