-- ==== Sys2Proof/Tests/Slice0.lean ====
section
/-! SUPPORT. The model's own tests: ill-formed terms refused, words written out from the spec's
encodings, the spec's own vectors (95_test_vectors.md), and for each statement a state or operands that
meet its hypotheses. -/

namespace Sys2Proof.Tests

open Sys2Proof.Machine

/-! ## Well-formedness: an ill-formed term for each check -/

theorem test_wf_alu : (Instr.lda (.mem (.zpy 0x10#8))).wf = false ∧ (Instr.lda (.imm 0x10#8)).wf = true := by
  decide
theorem test_wf_ldx : (Instr.ldx (.mem (.zpx 0x10#8))).wf = false ∧ (Instr.ldx (.mem (.zpy 0x10#8))).wf = true := by
  decide
theorem test_wf_ldy : (Instr.ldy (.mem (.zpy 0x10#8))).wf = false ∧ (Instr.ldy (.mem (.zpx 0x10#8))).wf = true := by
  decide
theorem test_wf_sta : (Instr.sta (.zpy 0x10#8)).wf = false ∧ (Instr.sta (.izy 0x10#8)).wf = true := by decide
theorem test_wf_stx : (Instr.stx (.zpx 0x10#8)).wf = false ∧ (Instr.stx (.zpy 0x10#8)).wf = true := by decide
theorem test_wf_sty : (Instr.sty (.zpy 0x10#8)).wf = false ∧ (Instr.sty (.zpx 0x10#8)).wf = true := by decide
theorem test_wf_index_compare :
    (Instr.cpx (.mem (.zpx 0x10#8))).wf = false ∧ (Instr.cpy (.mem (.abs 0x0010#16))).wf = true := by decide
theorem test_wf_bit : (Instr.bit (.zpx 0x10#8)).wf = false ∧ (Instr.bit (.abs 0x0010#16)).wf = true := by decide
theorem test_wf_unrecognized :
    (Instr.unrecognized 0xEA#8).wf = false ∧ (Instr.unrecognized 0x02#8).wf = true := by decide

/-! ## Decoding: every row of the opcode table, its word written out from R181 and R182 -/

/-- Whether bytes decode to an instruction with none left over. -/
def decodes (bytes : List Byte) (i : Instr) : Bool :=
  match decode bytes with
  | .ok (j, []) => decide (j = i)
  | .ok (_, _ :: _) | .error _ => false

theorem test_decode_load_store :
    decodes [0xA1#8, 0x10#8] (.lda (.mem (.izx 0x10#8))) ∧
      decodes [0xA5#8, 0x10#8] (.lda (.mem (.zp 0x10#8))) ∧
      decodes [0xA9#8, 0x5A#8] (.lda (.imm 0x5A#8)) ∧
      decodes [0xAD#8, 0x34#8, 0x12#8] (.lda (.mem (.abs 0x1234#16))) ∧
      decodes [0xB1#8, 0x10#8] (.lda (.mem (.izy 0x10#8))) ∧
      decodes [0xB5#8, 0x10#8] (.lda (.mem (.zpx 0x10#8))) ∧
      decodes [0xB9#8, 0x34#8, 0x12#8] (.lda (.mem (.aby 0x1234#16))) ∧
      decodes [0xBD#8, 0x34#8, 0x12#8] (.lda (.mem (.abx 0x1234#16))) ∧
      decodes [0xA2#8, 0x5A#8] (.ldx (.imm 0x5A#8)) ∧
      decodes [0xA6#8, 0x10#8] (.ldx (.mem (.zp 0x10#8))) ∧
      decodes [0xAE#8, 0x34#8, 0x12#8] (.ldx (.mem (.abs 0x1234#16))) ∧
      decodes [0xB6#8, 0x10#8] (.ldx (.mem (.zpy 0x10#8))) ∧
      decodes [0xBE#8, 0x34#8, 0x12#8] (.ldx (.mem (.aby 0x1234#16))) ∧
      decodes [0xA0#8, 0x5A#8] (.ldy (.imm 0x5A#8)) ∧
      decodes [0xA4#8, 0x10#8] (.ldy (.mem (.zp 0x10#8))) ∧
      decodes [0xAC#8, 0x34#8, 0x12#8] (.ldy (.mem (.abs 0x1234#16))) ∧
      decodes [0xB4#8, 0x10#8] (.ldy (.mem (.zpx 0x10#8))) ∧
      decodes [0xBC#8, 0x34#8, 0x12#8] (.ldy (.mem (.abx 0x1234#16))) ∧
      decodes [0x81#8, 0x10#8] (.sta (.izx 0x10#8)) ∧
      decodes [0x85#8, 0x10#8] (.sta (.zp 0x10#8)) ∧
      decodes [0x8D#8, 0x34#8, 0x12#8] (.sta (.abs 0x1234#16)) ∧
      decodes [0x91#8, 0x10#8] (.sta (.izy 0x10#8)) ∧
      decodes [0x95#8, 0x10#8] (.sta (.zpx 0x10#8)) ∧
      decodes [0x99#8, 0x34#8, 0x12#8] (.sta (.aby 0x1234#16)) ∧
      decodes [0x9D#8, 0x34#8, 0x12#8] (.sta (.abx 0x1234#16)) ∧
      decodes [0x86#8, 0x10#8] (.stx (.zp 0x10#8)) ∧
      decodes [0x8E#8, 0x34#8, 0x12#8] (.stx (.abs 0x1234#16)) ∧
      decodes [0x96#8, 0x10#8] (.stx (.zpy 0x10#8)) ∧
      decodes [0x84#8, 0x10#8] (.sty (.zp 0x10#8)) ∧
      decodes [0x8C#8, 0x34#8, 0x12#8] (.sty (.abs 0x1234#16)) ∧
      decodes [0x94#8, 0x10#8] (.sty (.zpx 0x10#8)) := by
  decide

theorem test_decode_transfer_stack :
    decodes [0xAA#8] (.tax) ∧
      decodes [0xA8#8] (.tay) ∧
      decodes [0x8A#8] (.txa) ∧
      decodes [0x98#8] (.tya) ∧
      decodes [0xBA#8] (.tsx) ∧
      decodes [0x9A#8] (.txs) ∧
      decodes [0x48#8] (.pha) ∧
      decodes [0x08#8] (.php) ∧
      decodes [0x68#8] (.pla) ∧
      decodes [0x28#8] (.plp) := by
  decide

theorem test_decode_add_subtract :
    decodes [0x61#8, 0x10#8] (.adc (.mem (.izx 0x10#8))) ∧
      decodes [0x65#8, 0x10#8] (.adc (.mem (.zp 0x10#8))) ∧
      decodes [0x69#8, 0x5A#8] (.adc (.imm 0x5A#8)) ∧
      decodes [0x6D#8, 0x34#8, 0x12#8] (.adc (.mem (.abs 0x1234#16))) ∧
      decodes [0x71#8, 0x10#8] (.adc (.mem (.izy 0x10#8))) ∧
      decodes [0x75#8, 0x10#8] (.adc (.mem (.zpx 0x10#8))) ∧
      decodes [0x79#8, 0x34#8, 0x12#8] (.adc (.mem (.aby 0x1234#16))) ∧
      decodes [0x7D#8, 0x34#8, 0x12#8] (.adc (.mem (.abx 0x1234#16))) ∧
      decodes [0xE1#8, 0x10#8] (.sbc (.mem (.izx 0x10#8))) ∧
      decodes [0xE5#8, 0x10#8] (.sbc (.mem (.zp 0x10#8))) ∧
      decodes [0xE9#8, 0x5A#8] (.sbc (.imm 0x5A#8)) ∧
      decodes [0xED#8, 0x34#8, 0x12#8] (.sbc (.mem (.abs 0x1234#16))) ∧
      decodes [0xF1#8, 0x10#8] (.sbc (.mem (.izy 0x10#8))) ∧
      decodes [0xF5#8, 0x10#8] (.sbc (.mem (.zpx 0x10#8))) ∧
      decodes [0xF9#8, 0x34#8, 0x12#8] (.sbc (.mem (.aby 0x1234#16))) ∧
      decodes [0xFD#8, 0x34#8, 0x12#8] (.sbc (.mem (.abx 0x1234#16))) := by
  decide

theorem test_decode_compare :
    decodes [0xC1#8, 0x10#8] (.cmp (.mem (.izx 0x10#8))) ∧
      decodes [0xC5#8, 0x10#8] (.cmp (.mem (.zp 0x10#8))) ∧
      decodes [0xC9#8, 0x5A#8] (.cmp (.imm 0x5A#8)) ∧
      decodes [0xCD#8, 0x34#8, 0x12#8] (.cmp (.mem (.abs 0x1234#16))) ∧
      decodes [0xD1#8, 0x10#8] (.cmp (.mem (.izy 0x10#8))) ∧
      decodes [0xD5#8, 0x10#8] (.cmp (.mem (.zpx 0x10#8))) ∧
      decodes [0xD9#8, 0x34#8, 0x12#8] (.cmp (.mem (.aby 0x1234#16))) ∧
      decodes [0xDD#8, 0x34#8, 0x12#8] (.cmp (.mem (.abx 0x1234#16))) ∧
      decodes [0xE0#8, 0x5A#8] (.cpx (.imm 0x5A#8)) ∧
      decodes [0xE4#8, 0x10#8] (.cpx (.mem (.zp 0x10#8))) ∧
      decodes [0xEC#8, 0x34#8, 0x12#8] (.cpx (.mem (.abs 0x1234#16))) ∧
      decodes [0xC0#8, 0x5A#8] (.cpy (.imm 0x5A#8)) ∧
      decodes [0xC4#8, 0x10#8] (.cpy (.mem (.zp 0x10#8))) ∧
      decodes [0xCC#8, 0x34#8, 0x12#8] (.cpy (.mem (.abs 0x1234#16))) := by
  decide

theorem test_decode_inc_dec :
    decodes [0xE6#8, 0x10#8] (.inc (.zp 0x10#8)) ∧
      decodes [0xEE#8, 0x34#8, 0x12#8] (.inc (.abs 0x1234#16)) ∧
      decodes [0xF6#8, 0x10#8] (.inc (.zpx 0x10#8)) ∧
      decodes [0xFE#8, 0x34#8, 0x12#8] (.inc (.abx 0x1234#16)) ∧
      decodes [0xE8#8] (.inx) ∧
      decodes [0xC8#8] (.iny) ∧
      decodes [0xC6#8, 0x10#8] (.dec (.zp 0x10#8)) ∧
      decodes [0xCE#8, 0x34#8, 0x12#8] (.dec (.abs 0x1234#16)) ∧
      decodes [0xD6#8, 0x10#8] (.dec (.zpx 0x10#8)) ∧
      decodes [0xDE#8, 0x34#8, 0x12#8] (.dec (.abx 0x1234#16)) ∧
      decodes [0xCA#8] (.dex) ∧
      decodes [0x88#8] (.dey) := by
  decide

theorem test_decode_logic :
    decodes [0x21#8, 0x10#8] (.and (.mem (.izx 0x10#8))) ∧
      decodes [0x25#8, 0x10#8] (.and (.mem (.zp 0x10#8))) ∧
      decodes [0x29#8, 0x5A#8] (.and (.imm 0x5A#8)) ∧
      decodes [0x2D#8, 0x34#8, 0x12#8] (.and (.mem (.abs 0x1234#16))) ∧
      decodes [0x31#8, 0x10#8] (.and (.mem (.izy 0x10#8))) ∧
      decodes [0x35#8, 0x10#8] (.and (.mem (.zpx 0x10#8))) ∧
      decodes [0x39#8, 0x34#8, 0x12#8] (.and (.mem (.aby 0x1234#16))) ∧
      decodes [0x3D#8, 0x34#8, 0x12#8] (.and (.mem (.abx 0x1234#16))) ∧
      decodes [0x01#8, 0x10#8] (.ora (.mem (.izx 0x10#8))) ∧
      decodes [0x05#8, 0x10#8] (.ora (.mem (.zp 0x10#8))) ∧
      decodes [0x09#8, 0x5A#8] (.ora (.imm 0x5A#8)) ∧
      decodes [0x0D#8, 0x34#8, 0x12#8] (.ora (.mem (.abs 0x1234#16))) ∧
      decodes [0x11#8, 0x10#8] (.ora (.mem (.izy 0x10#8))) ∧
      decodes [0x15#8, 0x10#8] (.ora (.mem (.zpx 0x10#8))) ∧
      decodes [0x19#8, 0x34#8, 0x12#8] (.ora (.mem (.aby 0x1234#16))) ∧
      decodes [0x1D#8, 0x34#8, 0x12#8] (.ora (.mem (.abx 0x1234#16))) ∧
      decodes [0x41#8, 0x10#8] (.eor (.mem (.izx 0x10#8))) ∧
      decodes [0x45#8, 0x10#8] (.eor (.mem (.zp 0x10#8))) ∧
      decodes [0x49#8, 0x5A#8] (.eor (.imm 0x5A#8)) ∧
      decodes [0x4D#8, 0x34#8, 0x12#8] (.eor (.mem (.abs 0x1234#16))) ∧
      decodes [0x51#8, 0x10#8] (.eor (.mem (.izy 0x10#8))) ∧
      decodes [0x55#8, 0x10#8] (.eor (.mem (.zpx 0x10#8))) ∧
      decodes [0x59#8, 0x34#8, 0x12#8] (.eor (.mem (.aby 0x1234#16))) ∧
      decodes [0x5D#8, 0x34#8, 0x12#8] (.eor (.mem (.abx 0x1234#16))) ∧
      decodes [0x24#8, 0x10#8] (.bit (.zp 0x10#8)) ∧
      decodes [0x2C#8, 0x34#8, 0x12#8] (.bit (.abs 0x1234#16)) := by
  decide

theorem test_decode_shift_rotate :
    decodes [0x06#8, 0x10#8] (.asl (.mem (.zp 0x10#8))) ∧
      decodes [0x0A#8] (.asl .acc) ∧
      decodes [0x0E#8, 0x34#8, 0x12#8] (.asl (.mem (.abs 0x1234#16))) ∧
      decodes [0x16#8, 0x10#8] (.asl (.mem (.zpx 0x10#8))) ∧
      decodes [0x1E#8, 0x34#8, 0x12#8] (.asl (.mem (.abx 0x1234#16))) ∧
      decodes [0x46#8, 0x10#8] (.lsr (.mem (.zp 0x10#8))) ∧
      decodes [0x4A#8] (.lsr .acc) ∧
      decodes [0x4E#8, 0x34#8, 0x12#8] (.lsr (.mem (.abs 0x1234#16))) ∧
      decodes [0x56#8, 0x10#8] (.lsr (.mem (.zpx 0x10#8))) ∧
      decodes [0x5E#8, 0x34#8, 0x12#8] (.lsr (.mem (.abx 0x1234#16))) ∧
      decodes [0x26#8, 0x10#8] (.rol (.mem (.zp 0x10#8))) ∧
      decodes [0x2A#8] (.rol .acc) ∧
      decodes [0x2E#8, 0x34#8, 0x12#8] (.rol (.mem (.abs 0x1234#16))) ∧
      decodes [0x36#8, 0x10#8] (.rol (.mem (.zpx 0x10#8))) ∧
      decodes [0x3E#8, 0x34#8, 0x12#8] (.rol (.mem (.abx 0x1234#16))) ∧
      decodes [0x66#8, 0x10#8] (.ror (.mem (.zp 0x10#8))) ∧
      decodes [0x6A#8] (.ror .acc) ∧
      decodes [0x6E#8, 0x34#8, 0x12#8] (.ror (.mem (.abs 0x1234#16))) ∧
      decodes [0x76#8, 0x10#8] (.ror (.mem (.zpx 0x10#8))) ∧
      decodes [0x7E#8, 0x34#8, 0x12#8] (.ror (.mem (.abx 0x1234#16))) := by
  decide

theorem test_decode_branch :
    decodes [0x90#8, 0xFB#8] (.bcc 0xFB#8) ∧
      decodes [0xB0#8, 0xFB#8] (.bcs 0xFB#8) ∧
      decodes [0xF0#8, 0xFB#8] (.beq 0xFB#8) ∧
      decodes [0xD0#8, 0xFB#8] (.bne 0xFB#8) ∧
      decodes [0x30#8, 0xFB#8] (.bmi 0xFB#8) ∧
      decodes [0x10#8, 0xFB#8] (.bpl 0xFB#8) ∧
      decodes [0x50#8, 0xFB#8] (.bvc 0xFB#8) ∧
      decodes [0x70#8, 0xFB#8] (.bvs 0xFB#8) := by
  decide

theorem test_decode_jump_call :
    decodes [0x4C#8, 0x34#8, 0x12#8] (.jmp (.abs 0x1234#16)) ∧
      decodes [0x6C#8, 0x34#8, 0x12#8] (.jmp (.ind 0x1234#16)) ∧
      decodes [0x20#8, 0x34#8, 0x12#8] (.jsr 0x1234#16) ∧
      decodes [0x60#8] (.rts) := by
  decide

theorem test_decode_flags :
    decodes [0x18#8] (.clc) ∧
      decodes [0x38#8] (.sec) ∧
      decodes [0x58#8] (.cli) ∧
      decodes [0x78#8] (.sei) ∧
      decodes [0xB8#8] (.clv) ∧
      decodes [0xD8#8] (.cld) ∧
      decodes [0xF8#8] (.sed) := by
  decide

theorem test_decode_system :
    decodes [0x00#8] (.brk) ∧
      decodes [0x40#8] (.rti) ∧
      decodes [0xEA#8] (.nop) := by
  decide

theorem test_decode_unrecognized :
    decodes [0x02#8] (.unrecognized 0x02#8) ∧ decodes [0xFF#8] (.unrecognized 0xFF#8) ∧
      decode [0xEB#8, 0x10#8, 0x02#8] = .ok (.unrecognized 0xEB#8, [0x10#8, 0x02#8]) :=
  ⟨by decide, by decide, rfl⟩

/-- Too few bytes are refused by name. -/
theorem test_decode_too_short :
    decode [] = .error .noBytes ∧ decode [0xA9#8] = .error (.tooShort 2 1) ∧
      decode [0x4C#8, 0x00#8] = .error (.tooShort 3 2) := ⟨rfl, rfl, rfl⟩

/-! The base cycles and the page-cross penalty of every opcode (R181, R182). -/

theorem test_cycles_1 :
    ([0x02#8, 0x03#8, 0x04#8, 0x07#8, 0x0B#8, 0x0C#8, 0x0F#8, 0x12#8, 0x13#8, 0x14#8, 0x17#8, 0x1A#8, 0x1B#8, 0x1C#8, 0x1F#8, 0x22#8] ++
        [0x23#8, 0x27#8, 0x2B#8, 0x2F#8, 0x32#8, 0x33#8, 0x34#8, 0x37#8, 0x3A#8, 0x3B#8, 0x3C#8, 0x3F#8, 0x42#8, 0x43#8, 0x44#8, 0x47#8] ++
        [0x4B#8, 0x4F#8, 0x52#8, 0x53#8, 0x54#8, 0x57#8, 0x5A#8, 0x5B#8, 0x5C#8, 0x5F#8, 0x62#8, 0x63#8, 0x64#8, 0x67#8, 0x6B#8, 0x6F#8] ++
        [0x72#8, 0x73#8, 0x74#8, 0x77#8, 0x7A#8, 0x7B#8, 0x7C#8, 0x7F#8, 0x80#8, 0x82#8, 0x83#8, 0x87#8, 0x89#8, 0x8B#8, 0x8F#8, 0x92#8] ++
        [0x93#8, 0x97#8, 0x9B#8, 0x9C#8, 0x9E#8, 0x9F#8, 0xA3#8, 0xA7#8, 0xAB#8, 0xAF#8, 0xB2#8, 0xB3#8, 0xB7#8, 0xBB#8, 0xBF#8, 0xC2#8] ++
        [0xC3#8, 0xC7#8, 0xCB#8, 0xCF#8, 0xD2#8, 0xD3#8, 0xD4#8, 0xD7#8, 0xDA#8, 0xDB#8, 0xDC#8, 0xDF#8, 0xE2#8, 0xE3#8, 0xE7#8, 0xEB#8] ++
        [0xEF#8, 0xF2#8, 0xF3#8, 0xF4#8, 0xF7#8, 0xFA#8, 0xFB#8, 0xFC#8, 0xFF#8]).all
        (fun op => decide (baseCycles op = 1) && (hasPenalty op == false)) = true := by decide

theorem test_cycles_2 :
    ([0x09#8, 0x0A#8, 0x10#8, 0x18#8, 0x29#8, 0x2A#8, 0x30#8, 0x38#8, 0x49#8, 0x4A#8, 0x50#8, 0x58#8, 0x69#8, 0x6A#8, 0x70#8, 0x78#8] ++
        [0x88#8, 0x8A#8, 0x90#8, 0x98#8, 0x9A#8, 0xA0#8, 0xA2#8, 0xA8#8, 0xA9#8, 0xAA#8, 0xB0#8, 0xB8#8, 0xBA#8, 0xC0#8, 0xC8#8, 0xC9#8] ++
        [0xCA#8, 0xD0#8, 0xD8#8, 0xE0#8, 0xE8#8, 0xE9#8, 0xEA#8, 0xF0#8, 0xF8#8]).all
        (fun op => decide (baseCycles op = 2) && (hasPenalty op == false)) = true := by decide

theorem test_cycles_3 :
    ([0x05#8, 0x08#8, 0x24#8, 0x25#8, 0x45#8, 0x48#8, 0x4C#8, 0x65#8, 0x84#8, 0x85#8, 0x86#8, 0xA4#8, 0xA5#8, 0xA6#8, 0xC4#8, 0xC5#8] ++
        [0xE4#8, 0xE5#8]).all
        (fun op => decide (baseCycles op = 3) && (hasPenalty op == false)) = true := by decide

theorem test_cycles_4 :
    ([0x0D#8, 0x15#8, 0x28#8, 0x2C#8, 0x2D#8, 0x35#8, 0x4D#8, 0x55#8, 0x68#8, 0x6D#8, 0x75#8, 0x8C#8, 0x8D#8, 0x8E#8, 0x94#8, 0x95#8] ++
        [0x96#8, 0xAC#8, 0xAD#8, 0xAE#8, 0xB4#8, 0xB5#8, 0xB6#8, 0xCC#8, 0xCD#8, 0xD5#8, 0xEC#8, 0xED#8, 0xF5#8]).all
        (fun op => decide (baseCycles op = 4) && (hasPenalty op == false)) = true := by decide

theorem test_cycles_4_penalty :
    ([0x19#8, 0x1D#8, 0x39#8, 0x3D#8, 0x59#8, 0x5D#8, 0x79#8, 0x7D#8, 0xB9#8, 0xBC#8, 0xBD#8, 0xBE#8, 0xD9#8, 0xDD#8, 0xF9#8, 0xFD#8]).all
        (fun op => decide (baseCycles op = 4) && (hasPenalty op == true)) = true := by decide

theorem test_cycles_5 :
    ([0x06#8, 0x26#8, 0x46#8, 0x66#8, 0x6C#8, 0x99#8, 0x9D#8, 0xC6#8, 0xE6#8]).all
        (fun op => decide (baseCycles op = 5) && (hasPenalty op == false)) = true := by decide

theorem test_cycles_5_penalty :
    ([0x11#8, 0x31#8, 0x51#8, 0x71#8, 0xB1#8, 0xD1#8, 0xF1#8]).all
        (fun op => decide (baseCycles op = 5) && (hasPenalty op == true)) = true := by decide

theorem test_cycles_6 :
    ([0x01#8, 0x0E#8, 0x16#8, 0x20#8, 0x21#8, 0x2E#8, 0x36#8, 0x40#8, 0x41#8, 0x4E#8, 0x56#8, 0x60#8, 0x61#8, 0x6E#8, 0x76#8, 0x81#8] ++
        [0x91#8, 0xA1#8, 0xC1#8, 0xCE#8, 0xD6#8, 0xE1#8, 0xEE#8, 0xF6#8]).all
        (fun op => decide (baseCycles op = 6) && (hasPenalty op == false)) = true := by decide

theorem test_cycles_7 :
    ([0x00#8, 0x1E#8, 0x3E#8, 0x5E#8, 0x7E#8, 0xDE#8, 0xFE#8]).all
        (fun op => decide (baseCycles op = 7) && (hasPenalty op == false)) = true := by decide

/-! ## Execution: the vectors of 95_test_vectors.md section 2, one execution step each -/

/-- The six flags in the order the vectors write them: N, V, D, I, Z, C. -/
def flagsOf (b : BitVec 6) : Flags :=
  { c := bitOf b 0, z := bitOf b 1, i := bitOf b 2, d := bitOf b 3, v := bitOf b 4, n := bitOf b 5 }

/-- A memory from its cells. -/
def memoryOf (cells : List (Nat × Byte)) : Memory :=
  cells.foldl (fun m c => Memory.write m c.1 c.2) []

/-- The registers a vector names. -/
structure Regs where
  pc : Word
  a : Byte
  x : Byte
  y : Byte
  sp : Byte
  p : BitVec 6

/-- The start of a vector: its registers, its RAM bytes, its code at PC in ROM, and the vectors NMI =
0x9000 and IRQ/BRK = 0xA000. -/
def start (r : Regs) (ram : List (Nat × Byte)) (code : List Byte) : State :=
  let s := State.reset
  let rom := Memory.ofBytes (r.pc.toNat - 0x8000) code
  let rom := Memory.write (Memory.write rom 0x7FFB 0x90#8) 0x7FFF 0xA0#8
  { s with
    cpu := { s.cpu with a := r.a, x := r.x, y := r.y, sp := r.sp, pc := r.pc, p := flagsOf r.p }
    bus := { s.bus with ram := memoryOf ram }
    cart := { s.cart with prg := rom } }

/-- Whether one execution step from `s` ends with the registers, the cost and the bytes a vector gives. -/
def ends (s : State) (r : Regs) (cost : Nat) (cells : List (Word × Byte)) : Bool :=
  match executionStep s with
  | .next t =>
    let c := t.cpu
    decide (c.pc = r.pc ∧ c.a = r.a ∧ c.x = r.x ∧ c.y = r.y ∧ c.sp = r.sp ∧ c.p = flagsOf r.p) &&
      decide (c.pending + 1 = cost) && cells.all fun q => (busRead t q.1).value == q.2
  | .fault _ => false
  | .refused _ => false

/-- Section 2.1, `LDA ($F0,X)`. -/
theorem test_lda :
    ends (start ⟨0x8000#16, 0x00#8, 0x0F#8, 0x00#8, 0xFD#8, 0b000100#6⟩ [(0x0000, 0x02#8), (0x00FF, 0x34#8), (0x0100, 0x07#8), (0x0234, 0x5A#8)]
        [0xA1#8, 0xF0#8])
      ⟨0x8002#16, 0x5A#8, 0x0F#8, 0x00#8, 0xFD#8, 0b000100#6⟩ 6 [] = true := by decide

/-- Section 2.1, `LDA ($10),Y`. -/
theorem test_lda_2 :
    ends (start ⟨0x8000#16, 0x00#8, 0x00#8, 0x10#8, 0xFD#8, 0b000100#6⟩ [(0x0010, 0xF8#8), (0x0011, 0x02#8), (0x0308, 0xC3#8)]
        [0xB1#8, 0x10#8])
      ⟨0x8002#16, 0xC3#8, 0x00#8, 0x10#8, 0xFD#8, 0b100100#6⟩ 6 [] = true := by decide

/-- Section 2.1, `LDX $F0,Y`. -/
theorem test_ldx :
    ends (start ⟨0x8000#16, 0x00#8, 0x00#8, 0x11#8, 0xFD#8, 0b000100#6⟩ [(0x0001, 0x80#8)]
        [0xB6#8, 0xF0#8])
      ⟨0x8002#16, 0x00#8, 0x80#8, 0x11#8, 0xFD#8, 0b100100#6⟩ 4 [] = true := by decide

/-- Section 2.1, `LDX $02F0,Y`. -/
theorem test_ldx_2 :
    ends (start ⟨0x8000#16, 0x00#8, 0x05#8, 0x10#8, 0xFD#8, 0b000100#6⟩ [(0x0300, 0x00#8)]
        [0xBE#8, 0xF0#8, 0x02#8])
      ⟨0x8003#16, 0x00#8, 0x00#8, 0x10#8, 0xFD#8, 0b000110#6⟩ 5 [] = true := by decide

/-- Section 2.1, `LDY $02F0,X`. -/
theorem test_ldy :
    ends (start ⟨0x8000#16, 0x00#8, 0x0F#8, 0x00#8, 0xFD#8, 0b000100#6⟩ [(0x02FF, 0x01#8)]
        [0xBC#8, 0xF0#8, 0x02#8])
      ⟨0x8003#16, 0x00#8, 0x0F#8, 0x01#8, 0xFD#8, 0b000100#6⟩ 4 [] = true := by decide

/-- Section 2.1, `STA $02FF,X`. -/
theorem test_sta :
    ends (start ⟨0x8000#16, 0xAB#8, 0x01#8, 0x00#8, 0xFD#8, 0b000100#6⟩ []
        [0x9D#8, 0xFF#8, 0x02#8])
      ⟨0x8003#16, 0xAB#8, 0x01#8, 0x00#8, 0xFD#8, 0b000100#6⟩ 5 [(0x0300#16, 0xAB#8)] = true := by decide

/-- Section 2.1, `STA ($20,X)`. -/
theorem test_sta_2 :
    ends (start ⟨0x8000#16, 0x66#8, 0x04#8, 0x00#8, 0xFD#8, 0b000100#6⟩ [(0x0024, 0x50#8), (0x0025, 0x00#8)]
        [0x81#8, 0x20#8])
      ⟨0x8002#16, 0x66#8, 0x04#8, 0x00#8, 0xFD#8, 0b000100#6⟩ 6 [(0x0050#16, 0x66#8)] = true := by decide

/-- Section 2.1, `STX $F0,Y`. -/
theorem test_stx :
    ends (start ⟨0x8000#16, 0x00#8, 0x12#8, 0x20#8, 0xFD#8, 0b000100#6⟩ []
        [0x96#8, 0xF0#8])
      ⟨0x8002#16, 0x00#8, 0x12#8, 0x20#8, 0xFD#8, 0b000100#6⟩ 4 [(0x0010#16, 0x12#8)] = true := by decide

/-- Section 2.1, `STY $10,X`. -/
theorem test_sty :
    ends (start ⟨0x8000#16, 0x00#8, 0xFF#8, 0x34#8, 0xFD#8, 0b000100#6⟩ []
        [0x94#8, 0x10#8])
      ⟨0x8002#16, 0x00#8, 0xFF#8, 0x34#8, 0xFD#8, 0b000100#6⟩ 4 [(0x000F#16, 0x34#8)] = true := by decide

/-- Section 2.2, `TAX`. -/
theorem test_tax :
    ends (start ⟨0x8000#16, 0x00#8, 0x55#8, 0x00#8, 0xFD#8, 0b000100#6⟩ []
        [0xAA#8])
      ⟨0x8001#16, 0x00#8, 0x00#8, 0x00#8, 0xFD#8, 0b000110#6⟩ 2 [] = true := by decide

/-- Section 2.2, `TAY`. -/
theorem test_tay :
    ends (start ⟨0x8000#16, 0x80#8, 0x00#8, 0x00#8, 0xFD#8, 0b000100#6⟩ []
        [0xA8#8])
      ⟨0x8001#16, 0x80#8, 0x00#8, 0x80#8, 0xFD#8, 0b100100#6⟩ 2 [] = true := by decide

/-- Section 2.2, `TXA`. -/
theorem test_txa :
    ends (start ⟨0x8000#16, 0x80#8, 0x7F#8, 0x00#8, 0xFD#8, 0b100100#6⟩ []
        [0x8A#8])
      ⟨0x8001#16, 0x7F#8, 0x7F#8, 0x00#8, 0xFD#8, 0b000100#6⟩ 2 [] = true := by decide

/-- Section 2.2, `TYA`. -/
theorem test_tya :
    ends (start ⟨0x8000#16, 0x01#8, 0x00#8, 0x00#8, 0xFD#8, 0b000100#6⟩ []
        [0x98#8])
      ⟨0x8001#16, 0x00#8, 0x00#8, 0x00#8, 0xFD#8, 0b000110#6⟩ 2 [] = true := by decide

/-- Section 2.2, `TSX`. -/
theorem test_tsx :
    ends (start ⟨0x8000#16, 0x00#8, 0x00#8, 0x00#8, 0xFD#8, 0b000100#6⟩ []
        [0xBA#8])
      ⟨0x8001#16, 0x00#8, 0xFD#8, 0x00#8, 0xFD#8, 0b100100#6⟩ 2 [] = true := by decide

/-- Section 2.2, `TXS`. -/
theorem test_txs :
    ends (start ⟨0x8000#16, 0x00#8, 0x00#8, 0x00#8, 0xFD#8, 0b100100#6⟩ []
        [0x9A#8])
      ⟨0x8001#16, 0x00#8, 0x00#8, 0x00#8, 0x00#8, 0b100100#6⟩ 2 [] = true := by decide

/-- Section 2.2, `PHA`. -/
theorem test_pha :
    ends (start ⟨0x8000#16, 0x12#8, 0x00#8, 0x00#8, 0x00#8, 0b000100#6⟩ []
        [0x48#8])
      ⟨0x8001#16, 0x12#8, 0x00#8, 0x00#8, 0xFF#8, 0b000100#6⟩ 3 [(0x0100#16, 0x12#8)] = true := by decide

/-- Section 2.2, `PLA`. -/
theorem test_pla :
    ends (start ⟨0x8000#16, 0x00#8, 0x00#8, 0x00#8, 0xFF#8, 0b000100#6⟩ [(0x0100, 0x80#8)]
        [0x68#8])
      ⟨0x8001#16, 0x80#8, 0x00#8, 0x00#8, 0x00#8, 0b100100#6⟩ 4 [] = true := by decide

/-- Section 2.2, `PLA`. -/
theorem test_pla_2 :
    ends (start ⟨0x8000#16, 0x09#8, 0x00#8, 0x00#8, 0x10#8, 0b000100#6⟩ [(0x0111, 0x00#8)]
        [0x68#8])
      ⟨0x8001#16, 0x00#8, 0x00#8, 0x00#8, 0x11#8, 0b000110#6⟩ 4 [] = true := by decide

/-- Section 2.2, `PHP`. -/
theorem test_php :
    ends (start ⟨0x8000#16, 0x00#8, 0x00#8, 0x00#8, 0xFD#8, 0b100001#6⟩ []
        [0x08#8])
      ⟨0x8001#16, 0x00#8, 0x00#8, 0x00#8, 0xFC#8, 0b100001#6⟩ 3 [(0x01FD#16, 0xB1#8)] = true := by decide

/-- Section 2.2, `PHP`. -/
theorem test_php_2 :
    ends (start ⟨0x8000#16, 0x00#8, 0x00#8, 0x00#8, 0xFD#8, 0b000000#6⟩ []
        [0x08#8])
      ⟨0x8001#16, 0x00#8, 0x00#8, 0x00#8, 0xFC#8, 0b000000#6⟩ 3 [(0x01FD#16, 0x30#8)] = true := by decide

/-- Section 2.2, `PLP`. -/
theorem test_plp :
    ends (start ⟨0x8000#16, 0x00#8, 0x00#8, 0x00#8, 0xFC#8, 0b000100#6⟩ [(0x01FD, 0xFF#8)]
        [0x28#8])
      ⟨0x8001#16, 0x00#8, 0x00#8, 0x00#8, 0xFD#8, 0b111111#6⟩ 4 [] = true := by decide

/-- Section 2.2, `PLP`. -/
theorem test_plp_2 :
    ends (start ⟨0x8000#16, 0x00#8, 0x00#8, 0x00#8, 0xFC#8, 0b111111#6⟩ [(0x01FD, 0x30#8)]
        [0x28#8])
      ⟨0x8001#16, 0x00#8, 0x00#8, 0x00#8, 0xFD#8, 0b000000#6⟩ 4 [] = true := by decide

/-- Section 2.3, `ADC #$50`. -/
theorem test_adc :
    ends (start ⟨0x8000#16, 0x50#8, 0x00#8, 0x00#8, 0xFD#8, 0b000000#6⟩ []
        [0x69#8, 0x50#8])
      ⟨0x8002#16, 0xA0#8, 0x00#8, 0x00#8, 0xFD#8, 0b110000#6⟩ 2 [] = true := by decide

/-- Section 2.3, `ADC #$FF`. -/
theorem test_adc_2 :
    ends (start ⟨0x8000#16, 0xFF#8, 0x00#8, 0x00#8, 0xFD#8, 0b000001#6⟩ []
        [0x69#8, 0xFF#8])
      ⟨0x8002#16, 0xFF#8, 0x00#8, 0x00#8, 0xFD#8, 0b100001#6⟩ 2 [] = true := by decide

/-- Section 2.3, `SBC #$00`. -/
theorem test_sbc :
    ends (start ⟨0x8000#16, 0x00#8, 0x00#8, 0x00#8, 0xFD#8, 0b000000#6⟩ []
        [0xE9#8, 0x00#8])
      ⟨0x8002#16, 0xFF#8, 0x00#8, 0x00#8, 0xFD#8, 0b100000#6⟩ 2 [] = true := by decide

/-- Section 2.3, `SBC #$80`. -/
theorem test_sbc_2 :
    ends (start ⟨0x8000#16, 0x7F#8, 0x00#8, 0x00#8, 0xFD#8, 0b000001#6⟩ []
        [0xE9#8, 0x80#8])
      ⟨0x8002#16, 0xFF#8, 0x00#8, 0x00#8, 0xFD#8, 0b110000#6⟩ 2 [] = true := by decide

/-- Section 2.3, `CMP #$40`. -/
theorem test_cmp :
    ends (start ⟨0x8000#16, 0x40#8, 0x00#8, 0x00#8, 0xFD#8, 0b110000#6⟩ []
        [0xC9#8, 0x40#8])
      ⟨0x8002#16, 0x40#8, 0x00#8, 0x00#8, 0xFD#8, 0b010011#6⟩ 2 [] = true := by decide

/-- Section 2.3, `CMP #$FF`. -/
theorem test_cmp_2 :
    ends (start ⟨0x8000#16, 0x00#8, 0x00#8, 0x00#8, 0xFD#8, 0b000000#6⟩ []
        [0xC9#8, 0xFF#8])
      ⟨0x8002#16, 0x00#8, 0x00#8, 0x00#8, 0xFD#8, 0b000000#6⟩ 2 [] = true := by decide

/-- Section 2.3, `CPX $10`. -/
theorem test_cpx :
    ends (start ⟨0x8000#16, 0x00#8, 0x10#8, 0x00#8, 0xFD#8, 0b000100#6⟩ [(0x0010, 0x20#8)]
        [0xE4#8, 0x10#8])
      ⟨0x8002#16, 0x00#8, 0x10#8, 0x00#8, 0xFD#8, 0b100100#6⟩ 3 [] = true := by decide

/-- Section 2.3, `CPY #$00`. -/
theorem test_cpy :
    ends (start ⟨0x8000#16, 0x00#8, 0x00#8, 0x00#8, 0xFD#8, 0b100000#6⟩ []
        [0xC0#8, 0x00#8])
      ⟨0x8002#16, 0x00#8, 0x00#8, 0x00#8, 0xFD#8, 0b000011#6⟩ 2 [] = true := by decide

/-- Section 2.4, `INC $10`. -/
theorem test_inc :
    ends (start ⟨0x8000#16, 0x00#8, 0x00#8, 0x00#8, 0xFD#8, 0b000100#6⟩ [(0x0010, 0xFF#8)]
        [0xE6#8, 0x10#8])
      ⟨0x8002#16, 0x00#8, 0x00#8, 0x00#8, 0xFD#8, 0b000110#6⟩ 5 [(0x0010#16, 0x00#8)] = true := by decide

/-- Section 2.4, `DEC $10`. -/
theorem test_dec :
    ends (start ⟨0x8000#16, 0x00#8, 0x00#8, 0x00#8, 0xFD#8, 0b000100#6⟩ [(0x0010, 0x00#8)]
        [0xC6#8, 0x10#8])
      ⟨0x8002#16, 0x00#8, 0x00#8, 0x00#8, 0xFD#8, 0b100100#6⟩ 5 [(0x0010#16, 0xFF#8)] = true := by decide

/-- Section 2.4, `DEC $10`. -/
theorem test_dec_2 :
    ends (start ⟨0x8000#16, 0x00#8, 0x00#8, 0x00#8, 0xFD#8, 0b000100#6⟩ [(0x0010, 0x01#8)]
        [0xC6#8, 0x10#8])
      ⟨0x8002#16, 0x00#8, 0x00#8, 0x00#8, 0xFD#8, 0b000110#6⟩ 5 [(0x0010#16, 0x00#8)] = true := by decide

/-- Section 2.4, `INC $02FF,X`. -/
theorem test_inc_2 :
    ends (start ⟨0x8000#16, 0x00#8, 0x01#8, 0x00#8, 0xFD#8, 0b000100#6⟩ [(0x0300, 0x01#8)]
        [0xFE#8, 0xFF#8, 0x02#8])
      ⟨0x8003#16, 0x00#8, 0x01#8, 0x00#8, 0xFD#8, 0b000100#6⟩ 7 [(0x0300#16, 0x02#8)] = true := by decide

/-- Section 2.4, `INX`. -/
theorem test_inx :
    ends (start ⟨0x8000#16, 0x00#8, 0xFF#8, 0x00#8, 0xFD#8, 0b000100#6⟩ []
        [0xE8#8])
      ⟨0x8001#16, 0x00#8, 0x00#8, 0x00#8, 0xFD#8, 0b000110#6⟩ 2 [] = true := by decide

/-- Section 2.4, `INY`. -/
theorem test_iny :
    ends (start ⟨0x8000#16, 0x00#8, 0x00#8, 0x7F#8, 0xFD#8, 0b000100#6⟩ []
        [0xC8#8])
      ⟨0x8001#16, 0x00#8, 0x00#8, 0x80#8, 0xFD#8, 0b100100#6⟩ 2 [] = true := by decide

/-- Section 2.4, `DEX`. -/
theorem test_dex :
    ends (start ⟨0x8000#16, 0x00#8, 0x00#8, 0x00#8, 0xFD#8, 0b000100#6⟩ []
        [0xCA#8])
      ⟨0x8001#16, 0x00#8, 0xFF#8, 0x00#8, 0xFD#8, 0b100100#6⟩ 2 [] = true := by decide

/-- Section 2.4, `DEY`. -/
theorem test_dey :
    ends (start ⟨0x8000#16, 0x00#8, 0x00#8, 0x01#8, 0xFD#8, 0b000100#6⟩ []
        [0x88#8])
      ⟨0x8001#16, 0x00#8, 0x00#8, 0x00#8, 0xFD#8, 0b000110#6⟩ 2 [] = true := by decide

/-- Section 2.5, `AND #$0F`. -/
theorem test_and :
    ends (start ⟨0x8000#16, 0xF0#8, 0x00#8, 0x00#8, 0xFD#8, 0b000100#6⟩ []
        [0x29#8, 0x0F#8])
      ⟨0x8002#16, 0x00#8, 0x00#8, 0x00#8, 0xFD#8, 0b000110#6⟩ 2 [] = true := by decide

/-- Section 2.5, `AND #$80`. -/
theorem test_and_2 :
    ends (start ⟨0x8000#16, 0xFF#8, 0x00#8, 0x00#8, 0xFD#8, 0b000100#6⟩ []
        [0x29#8, 0x80#8])
      ⟨0x8002#16, 0x80#8, 0x00#8, 0x00#8, 0xFD#8, 0b100100#6⟩ 2 [] = true := by decide

/-- Section 2.5, `ORA #$00`. -/
theorem test_ora :
    ends (start ⟨0x8000#16, 0x00#8, 0x00#8, 0x00#8, 0xFD#8, 0b000100#6⟩ []
        [0x09#8, 0x00#8])
      ⟨0x8002#16, 0x00#8, 0x00#8, 0x00#8, 0xFD#8, 0b000110#6⟩ 2 [] = true := by decide

/-- Section 2.5, `ORA $10`. -/
theorem test_ora_2 :
    ends (start ⟨0x8000#16, 0x01#8, 0x00#8, 0x00#8, 0xFD#8, 0b000100#6⟩ [(0x0010, 0x80#8)]
        [0x05#8, 0x10#8])
      ⟨0x8002#16, 0x81#8, 0x00#8, 0x00#8, 0xFD#8, 0b100100#6⟩ 3 [] = true := by decide

/-- Section 2.5, `EOR #$FF`. -/
theorem test_eor :
    ends (start ⟨0x8000#16, 0xFF#8, 0x00#8, 0x00#8, 0xFD#8, 0b000100#6⟩ []
        [0x49#8, 0xFF#8])
      ⟨0x8002#16, 0x00#8, 0x00#8, 0x00#8, 0xFD#8, 0b000110#6⟩ 2 [] = true := by decide

/-- Section 2.5, `EOR #$FF`. -/
theorem test_eor_2 :
    ends (start ⟨0x8000#16, 0x0F#8, 0x00#8, 0x00#8, 0xFD#8, 0b000100#6⟩ []
        [0x49#8, 0xFF#8])
      ⟨0x8002#16, 0xF0#8, 0x00#8, 0x00#8, 0xFD#8, 0b100100#6⟩ 2 [] = true := by decide

/-- Section 2.5, `BIT $10`. -/
theorem test_bit :
    ends (start ⟨0x8000#16, 0x3F#8, 0x00#8, 0x00#8, 0xFD#8, 0b000100#6⟩ [(0x0010, 0xC0#8)]
        [0x24#8, 0x10#8])
      ⟨0x8002#16, 0x3F#8, 0x00#8, 0x00#8, 0xFD#8, 0b110110#6⟩ 3 [] = true := by decide

/-- Section 2.5, `BIT $10`. -/
theorem test_bit_2 :
    ends (start ⟨0x8000#16, 0x01#8, 0x00#8, 0x00#8, 0xFD#8, 0b110010#6⟩ [(0x0010, 0x01#8)]
        [0x24#8, 0x10#8])
      ⟨0x8002#16, 0x01#8, 0x00#8, 0x00#8, 0xFD#8, 0b000000#6⟩ 3 [] = true := by decide

/-- Section 2.6, `ASL A`. -/
theorem test_asl :
    ends (start ⟨0x8000#16, 0x80#8, 0x00#8, 0x00#8, 0xFD#8, 0b000100#6⟩ []
        [0x0A#8])
      ⟨0x8001#16, 0x00#8, 0x00#8, 0x00#8, 0xFD#8, 0b000111#6⟩ 2 [] = true := by decide

/-- Section 2.6, `LSR A`. -/
theorem test_lsr :
    ends (start ⟨0x8000#16, 0x01#8, 0x00#8, 0x00#8, 0xFD#8, 0b100000#6⟩ []
        [0x4A#8])
      ⟨0x8001#16, 0x00#8, 0x00#8, 0x00#8, 0xFD#8, 0b000011#6⟩ 2 [] = true := by decide

/-- Section 2.6, `ROL A`. -/
theorem test_rol :
    ends (start ⟨0x8000#16, 0x80#8, 0x00#8, 0x00#8, 0xFD#8, 0b000001#6⟩ []
        [0x2A#8])
      ⟨0x8001#16, 0x01#8, 0x00#8, 0x00#8, 0xFD#8, 0b000001#6⟩ 2 [] = true := by decide

/-- Section 2.6, `ROR A`. -/
theorem test_ror :
    ends (start ⟨0x8000#16, 0x01#8, 0x00#8, 0x00#8, 0xFD#8, 0b000000#6⟩ []
        [0x6A#8])
      ⟨0x8001#16, 0x00#8, 0x00#8, 0x00#8, 0xFD#8, 0b000011#6⟩ 2 [] = true := by decide

/-- Section 2.6, `ROR $10`. -/
theorem test_ror_2 :
    ends (start ⟨0x8000#16, 0x00#8, 0x00#8, 0x00#8, 0xFD#8, 0b000001#6⟩ [(0x0010, 0x02#8)]
        [0x66#8, 0x10#8])
      ⟨0x8002#16, 0x00#8, 0x00#8, 0x00#8, 0xFD#8, 0b100000#6⟩ 5 [(0x0010#16, 0x81#8)] = true := by decide

/-- Section 2.6, `ASL $02FF,X`. -/
theorem test_asl_2 :
    ends (start ⟨0x8000#16, 0x00#8, 0x01#8, 0x00#8, 0xFD#8, 0b000100#6⟩ [(0x0300, 0xC0#8)]
        [0x1E#8, 0xFF#8, 0x02#8])
      ⟨0x8003#16, 0x00#8, 0x01#8, 0x00#8, 0xFD#8, 0b100101#6⟩ 7 [(0x0300#16, 0x80#8)] = true := by decide

/-- Section 2.6, `LSR $10,X`. -/
theorem test_lsr_2 :
    ends (start ⟨0x8000#16, 0x00#8, 0xF8#8, 0x00#8, 0xFD#8, 0b000100#6⟩ [(0x0008, 0x03#8)]
        [0x56#8, 0x10#8])
      ⟨0x8002#16, 0x00#8, 0xF8#8, 0x00#8, 0xFD#8, 0b000101#6⟩ 6 [(0x0008#16, 0x01#8)] = true := by decide

/-- Section 2.6, `ROL $0200`. -/
theorem test_rol_2 :
    ends (start ⟨0x8000#16, 0x00#8, 0x00#8, 0x00#8, 0xFD#8, 0b000001#6⟩ [(0x0200, 0x7F#8)]
        [0x2E#8, 0x00#8, 0x02#8])
      ⟨0x8003#16, 0x00#8, 0x00#8, 0x00#8, 0xFD#8, 0b100000#6⟩ 6 [(0x0200#16, 0xFF#8)] = true := by decide

/-- Section 2.7, `BCC $8006`. -/
theorem test_bcc :
    ends (start ⟨0x8000#16, 0x00#8, 0x00#8, 0x00#8, 0xFD#8, 0b000000#6⟩ []
        [0x90#8, 0x04#8])
      ⟨0x8006#16, 0x00#8, 0x00#8, 0x00#8, 0xFD#8, 0b000000#6⟩ 3 [] = true := by decide

/-- Section 2.7, `BCS $8006`. -/
theorem test_bcs :
    ends (start ⟨0x8000#16, 0x00#8, 0x00#8, 0x00#8, 0xFD#8, 0b000000#6⟩ []
        [0xB0#8, 0x04#8])
      ⟨0x8002#16, 0x00#8, 0x00#8, 0x00#8, 0xFD#8, 0b000000#6⟩ 2 [] = true := by decide

/-- Section 2.7, `BCS $8006`. -/
theorem test_bcs_2 :
    ends (start ⟨0x8000#16, 0x00#8, 0x00#8, 0x00#8, 0xFD#8, 0b000001#6⟩ []
        [0xB0#8, 0x04#8])
      ⟨0x8006#16, 0x00#8, 0x00#8, 0x00#8, 0xFD#8, 0b000001#6⟩ 3 [] = true := by decide

/-- Section 2.7, `BEQ $8010`. -/
theorem test_beq :
    ends (start ⟨0x8010#16, 0x00#8, 0x00#8, 0x00#8, 0xFD#8, 0b000010#6⟩ []
        [0xF0#8, 0xFE#8])
      ⟨0x8010#16, 0x00#8, 0x00#8, 0x00#8, 0xFD#8, 0b000010#6⟩ 3 [] = true := by decide

/-- Section 2.7, `BNE $8002`. -/
theorem test_bne :
    ends (start ⟨0x8005#16, 0x00#8, 0x00#8, 0x00#8, 0xFD#8, 0b000000#6⟩ []
        [0xD0#8, 0xFB#8])
      ⟨0x8002#16, 0x00#8, 0x00#8, 0x00#8, 0xFD#8, 0b000000#6⟩ 3 [] = true := by decide

/-- Section 2.7, `BNE $8002`. -/
theorem test_bne_2 :
    ends (start ⟨0x8000#16, 0x00#8, 0x00#8, 0x00#8, 0xFD#8, 0b000000#6⟩ []
        [0xD0#8, 0x00#8])
      ⟨0x8002#16, 0x00#8, 0x00#8, 0x00#8, 0xFD#8, 0b000000#6⟩ 3 [] = true := by decide

/-- Section 2.7, `BMI $8002`. -/
theorem test_bmi :
    ends (start ⟨0x8080#16, 0x00#8, 0x00#8, 0x00#8, 0xFD#8, 0b100000#6⟩ []
        [0x30#8, 0x80#8])
      ⟨0x8002#16, 0x00#8, 0x00#8, 0x00#8, 0xFD#8, 0b100000#6⟩ 3 [] = true := by decide

/-- Section 2.7, `BPL $8100`. -/
theorem test_bpl :
    ends (start ⟨0x80FD#16, 0x00#8, 0x00#8, 0x00#8, 0xFD#8, 0b000000#6⟩ []
        [0x10#8, 0x01#8])
      ⟨0x8100#16, 0x00#8, 0x00#8, 0x00#8, 0xFD#8, 0b000000#6⟩ 4 [] = true := by decide

/-- Section 2.7, `BPL $8101`. -/
theorem test_bpl_2 :
    ends (start ⟨0x80FE#16, 0x00#8, 0x00#8, 0x00#8, 0xFD#8, 0b000000#6⟩ []
        [0x10#8, 0x01#8])
      ⟨0x8101#16, 0x00#8, 0x00#8, 0x00#8, 0xFD#8, 0b000000#6⟩ 3 [] = true := by decide

/-- Section 2.7, `BVC $8081`. -/
theorem test_bvc :
    ends (start ⟨0x8000#16, 0x00#8, 0x00#8, 0x00#8, 0xFD#8, 0b000000#6⟩ []
        [0x50#8, 0x7F#8])
      ⟨0x8081#16, 0x00#8, 0x00#8, 0x00#8, 0xFD#8, 0b000000#6⟩ 3 [] = true := by decide

/-- Section 2.7, `BVS $8101`. -/
theorem test_bvs :
    ends (start ⟨0x8080#16, 0x00#8, 0x00#8, 0x00#8, 0xFD#8, 0b010000#6⟩ []
        [0x70#8, 0x7F#8])
      ⟨0x8101#16, 0x00#8, 0x00#8, 0x00#8, 0xFD#8, 0b010000#6⟩ 4 [] = true := by decide

/-- Section 2.7, `BVS $8006`. -/
theorem test_bvs_2 :
    ends (start ⟨0x8000#16, 0x00#8, 0x00#8, 0x00#8, 0xFD#8, 0b000000#6⟩ []
        [0x70#8, 0x04#8])
      ⟨0x8002#16, 0x00#8, 0x00#8, 0x00#8, 0xFD#8, 0b000000#6⟩ 2 [] = true := by decide

/-- Section 2.7, `BCC $80FF`. -/
theorem test_bcc_2 :
    ends (start ⟨0x8100#16, 0x00#8, 0x00#8, 0x00#8, 0xFD#8, 0b000000#6⟩ []
        [0x90#8, 0xFD#8])
      ⟨0x80FF#16, 0x00#8, 0x00#8, 0x00#8, 0xFD#8, 0b000000#6⟩ 4 [] = true := by decide

/-- Section 2.7, `BEQ $8006`. -/
theorem test_beq_2 :
    ends (start ⟨0x8000#16, 0x00#8, 0x00#8, 0x00#8, 0xFD#8, 0b111101#6⟩ []
        [0xF0#8, 0x04#8])
      ⟨0x8002#16, 0x00#8, 0x00#8, 0x00#8, 0xFD#8, 0b111101#6⟩ 2 [] = true := by decide

/-- Section 2.8, `JMP $C000`. -/
theorem test_jmp :
    ends (start ⟨0x8000#16, 0x00#8, 0x00#8, 0x00#8, 0xFD#8, 0b000100#6⟩ []
        [0x4C#8, 0x00#8, 0xC0#8])
      ⟨0xC000#16, 0x00#8, 0x00#8, 0x00#8, 0xFD#8, 0b000100#6⟩ 3 [] = true := by decide

/-- Section 2.8, `JMP ($02FF)`. -/
theorem test_jmp_2 :
    ends (start ⟨0x8000#16, 0x00#8, 0x00#8, 0x00#8, 0xFD#8, 0b000100#6⟩ [(0x0200, 0x90#8), (0x02FF, 0x00#8), (0x0300, 0xA0#8)]
        [0x6C#8, 0xFF#8, 0x02#8])
      ⟨0x9000#16, 0x00#8, 0x00#8, 0x00#8, 0xFD#8, 0b000100#6⟩ 5 [] = true := by decide

/-- Section 2.8, `JSR $9000`. -/
theorem test_jsr :
    ends (start ⟨0x8000#16, 0x00#8, 0x00#8, 0x00#8, 0xFD#8, 0b000100#6⟩ []
        [0x20#8, 0x00#8, 0x90#8])
      ⟨0x9000#16, 0x00#8, 0x00#8, 0x00#8, 0xFB#8, 0b000100#6⟩ 6 [(0x01FC#16, 0x02#8), (0x01FD#16, 0x80#8)] = true := by decide

/-- Section 2.8, `JSR $9000`. -/
theorem test_jsr_2 :
    ends (start ⟨0x8000#16, 0x00#8, 0x00#8, 0x00#8, 0x00#8, 0b000100#6⟩ []
        [0x20#8, 0x00#8, 0x90#8])
      ⟨0x9000#16, 0x00#8, 0x00#8, 0x00#8, 0xFE#8, 0b000100#6⟩ 6 [(0x0100#16, 0x80#8), (0x01FF#16, 0x02#8)] = true := by decide

/-- Section 2.8, `RTS`. -/
theorem test_rts :
    ends (start ⟨0x9000#16, 0x00#8, 0x00#8, 0x00#8, 0xFB#8, 0b000100#6⟩ [(0x01FC, 0x02#8), (0x01FD, 0x80#8)]
        [0x60#8])
      ⟨0x8003#16, 0x00#8, 0x00#8, 0x00#8, 0xFD#8, 0b000100#6⟩ 6 [] = true := by decide

/-- Section 2.8, `RTS`. -/
theorem test_rts_2 :
    ends (start ⟨0x9000#16, 0x00#8, 0x00#8, 0x00#8, 0xFF#8, 0b000100#6⟩ [(0x0100, 0xFF#8), (0x0101, 0xFF#8)]
        [0x60#8])
      ⟨0x0000#16, 0x00#8, 0x00#8, 0x00#8, 0x01#8, 0b000100#6⟩ 6 [] = true := by decide

/-- Section 2.9, `CLC`. -/
theorem test_clc :
    ends (start ⟨0x8000#16, 0x00#8, 0x00#8, 0x00#8, 0xFD#8, 0b111111#6⟩ []
        [0x18#8])
      ⟨0x8001#16, 0x00#8, 0x00#8, 0x00#8, 0xFD#8, 0b111110#6⟩ 2 [] = true := by decide

/-- Section 2.9, `SEC`. -/
theorem test_sec :
    ends (start ⟨0x8000#16, 0x00#8, 0x00#8, 0x00#8, 0xFD#8, 0b000000#6⟩ []
        [0x38#8])
      ⟨0x8001#16, 0x00#8, 0x00#8, 0x00#8, 0xFD#8, 0b000001#6⟩ 2 [] = true := by decide

/-- Section 2.9, `CLI`. -/
theorem test_cli :
    ends (start ⟨0x8000#16, 0x00#8, 0x00#8, 0x00#8, 0xFD#8, 0b111111#6⟩ []
        [0x58#8])
      ⟨0x8001#16, 0x00#8, 0x00#8, 0x00#8, 0xFD#8, 0b111011#6⟩ 2 [] = true := by decide

/-- Section 2.9, `SEI`. -/
theorem test_sei :
    ends (start ⟨0x8000#16, 0x00#8, 0x00#8, 0x00#8, 0xFD#8, 0b000000#6⟩ []
        [0x78#8])
      ⟨0x8001#16, 0x00#8, 0x00#8, 0x00#8, 0xFD#8, 0b000100#6⟩ 2 [] = true := by decide

/-- Section 2.9, `CLV`. -/
theorem test_clv :
    ends (start ⟨0x8000#16, 0x00#8, 0x00#8, 0x00#8, 0xFD#8, 0b111111#6⟩ []
        [0xB8#8])
      ⟨0x8001#16, 0x00#8, 0x00#8, 0x00#8, 0xFD#8, 0b101111#6⟩ 2 [] = true := by decide

/-- Section 2.9, `CLD`. -/
theorem test_cld :
    ends (start ⟨0x8000#16, 0x00#8, 0x00#8, 0x00#8, 0xFD#8, 0b111111#6⟩ []
        [0xD8#8])
      ⟨0x8001#16, 0x00#8, 0x00#8, 0x00#8, 0xFD#8, 0b110111#6⟩ 2 [] = true := by decide

/-- Section 2.9, `SED`. -/
theorem test_sed :
    ends (start ⟨0x8000#16, 0x00#8, 0x00#8, 0x00#8, 0xFD#8, 0b000000#6⟩ []
        [0xF8#8])
      ⟨0x8001#16, 0x00#8, 0x00#8, 0x00#8, 0xFD#8, 0b001000#6⟩ 2 [] = true := by decide

/-- Section 2.10, `BRK`. -/
theorem test_brk :
    ends (start ⟨0x8000#16, 0x00#8, 0x00#8, 0x00#8, 0xFD#8, 0b000001#6⟩ []
        [0x00#8])
      ⟨0xA000#16, 0x00#8, 0x00#8, 0x00#8, 0xFA#8, 0b000101#6⟩ 7 [(0x01FB#16, 0x31#8), (0x01FC#16, 0x02#8), (0x01FD#16, 0x80#8)] = true := by decide

/-- Section 2.10, `BRK`. -/
theorem test_brk_2 :
    ends (start ⟨0x80FF#16, 0x00#8, 0x00#8, 0x00#8, 0x01#8, 0b111111#6⟩ []
        [0x00#8])
      ⟨0xA000#16, 0x00#8, 0x00#8, 0x00#8, 0xFE#8, 0b111111#6⟩ 7 [(0x0100#16, 0x01#8), (0x0101#16, 0x81#8), (0x01FF#16, 0xFF#8)] = true := by decide

/-- Section 2.10, `RTI`. -/
theorem test_rti :
    ends (start ⟨0xA000#16, 0x00#8, 0x00#8, 0x00#8, 0xFA#8, 0b000100#6⟩ [(0x01FB, 0x31#8), (0x01FC, 0x02#8), (0x01FD, 0x80#8)]
        [0x40#8])
      ⟨0x8002#16, 0x00#8, 0x00#8, 0x00#8, 0xFD#8, 0b000001#6⟩ 6 [] = true := by decide

/-- Section 2.10, `RTI`. -/
theorem test_rti_2 :
    ends (start ⟨0xA000#16, 0x00#8, 0x00#8, 0x00#8, 0xFA#8, 0b000000#6⟩ [(0x01FB, 0xCF#8), (0x01FC, 0x34#8), (0x01FD, 0x12#8)]
        [0x40#8])
      ⟨0x1234#16, 0x00#8, 0x00#8, 0x00#8, 0xFD#8, 0b111111#6⟩ 6 [] = true := by decide

/-- Section 2.10, `NOP`. -/
theorem test_nop :
    ends (start ⟨0x8000#16, 0x00#8, 0x00#8, 0x00#8, 0xFD#8, 0b100010#6⟩ []
        [0xEA#8])
      ⟨0x8001#16, 0x00#8, 0x00#8, 0x00#8, 0xFD#8, 0b100010#6⟩ 2 [] = true := by decide

/-- Section 2.10, `.byte $02`. -/
theorem test_unrecognized :
    ends (start ⟨0x8000#16, 0x01#8, 0x02#8, 0x03#8, 0xFD#8, 0b100010#6⟩ []
        [0x02#8])
      ⟨0x8001#16, 0x01#8, 0x02#8, 0x03#8, 0xFD#8, 0b100010#6⟩ 1 [] = true := by decide

/-- Section 2.10, `.byte $FF`. -/
theorem test_unrecognized_2 :
    ends (start ⟨0x8000#16, 0x00#8, 0x00#8, 0x00#8, 0xFD#8, 0b000000#6⟩ []
        [0xFF#8])
      ⟨0x8001#16, 0x00#8, 0x00#8, 0x00#8, 0xFD#8, 0b000000#6⟩ 1 [] = true := by decide

/-- The next step runs the placed instruction: INX of X = 0 gives 1 (R266). -/
theorem test_step_runs_fetch_word :
    (match step (State.reset.withFetchWord 8 0xE8) with
      | .next t => decide (t.cpu.x = 1 ∧ t.cpu.pc = 1 ∧ t.cpu.pending = 1)
      | .fault _ | .refused _ => false) = true := by decide +kernel

/-! ## Interrupts, devices and the start of a session: sections 1, 2.11 and 3 -/

/-- Section 2.11, the IRQ sequence: the pushed flag byte has bit 5 set and bit 4 clear. -/
theorem test_irq_sequence :
    ends
        ((start ⟨0x8000#16, 0x00#8, 0x00#8, 0x00#8, 0xFD#8, 0b000000#6⟩ [] [0xEA#8]).setIrq
          { frame := true, dmc := false, mapper := false })
        ⟨0xA000#16, 0x00#8, 0x00#8, 0x00#8, 0xFA#8, 0b000100#6⟩ 7
        [(0x01FD#16, 0x80#8), (0x01FC#16, 0x00#8), (0x01FB#16, 0x20#8)] = true := by decide

/-- Section 2.11, NMI before IRQ. -/
theorem test_nmi_before_irq :
    ends
        (((start ⟨0x8000#16, 0x00#8, 0x00#8, 0x00#8, 0xFD#8, 0b000000#6⟩ [] [0xEA#8]).setIrq
          { frame := false, dmc := true, mapper := false }).setNmi true)
        ⟨0x9000#16, 0x00#8, 0x00#8, 0x00#8, 0xFA#8, 0b000100#6⟩ 7
        [(0x01FD#16, 0x80#8), (0x01FC#16, 0x00#8), (0x01FB#16, 0x20#8)] = true := by decide

/-- Section 2.11, a masked IRQ: the NOP runs. -/
theorem test_irq_masked :
    ends
        ((start ⟨0x8000#16, 0x00#8, 0x00#8, 0x00#8, 0xFD#8, 0b000100#6⟩ [] [0xEA#8]).setIrq
          { frame := true, dmc := false, mapper := false })
        ⟨0x8001#16, 0x00#8, 0x00#8, 0x00#8, 0xFD#8, 0b000100#6⟩ 2 [] = true := by decide

/-- Section 2.11, the sprite DMA store: 4 and the stall of 513. -/
theorem test_sprite_dma_stalls :
    ends (start ⟨0x8000#16, 0x02#8, 0x00#8, 0x00#8, 0xFD#8, 0b000100#6⟩ [] [0x8D#8, 0x14#8, 0x40#8])
        ⟨0x8003#16, 0x02#8, 0x00#8, 0x00#8, 0xFD#8, 0b000100#6⟩ 517 [] = true := by decide

/-- Section 3.2: sprite DMA from page 2 with the OAM address at 0xFE wraps in sprite memory. -/
theorem test_sprite_dma_wraps :
    let s := State.reset.setBus { State.reset.bus with ram := memoryOf [(0x200, 0x11#8), (0x202, 0x33#8)] }
    let t := busWrite (s.setVideo { s.video with oamAddr := 0xFE#8 }) 0x4014#16 0x02#8
    Memory.read t.video.oam 0xFE = 0x11#8 ∧ Memory.read t.video.oam 0x00 = 0x33#8 ∧
      t.video.oamAddr = 0xFE#8 := by decide +kernel

/-- A machine with the given nametable and palette bytes and Video Engine. -/
def screen (vram palette : List (Nat × Byte)) (d : Video) : State :=
  (State.reset.setBus { State.reset.bus with vram := memoryOf vram, palette := memoryOf palette }).setVideo d

/-- Section 1, S5: the two address writes, then two buffered reads. -/
theorem test_vram_read_is_buffered :
    let s := screen [(0x108, 0x5A#8), (0x109, 0x6B#8)] [] { Video.reset [] with readBuffer := 0xB0#8 }
    let s1 := busWrite (busWrite s 0x2006#16 0x21#8) 0x2006#16 0x08#8
    let r1 := busRead s1 0x2007#16
    let r2 := busRead r1.state 0x2007#16
    s1.video.v = 0x2108#15 ∧ r1.value = 0xB0#8 ∧ r2.value = 0x5A#8 ∧ r2.state.video.v = 0x210A#15 ∧
      r2.state.video.readBuffer = 0x6B#8 := by decide

/-- Section 3.2: the two scroll writes. -/
theorem test_scroll_writes :
    let t := busWrite (busWrite State.reset 0x2005#16 0x7D#8) 0x2005#16 0x5E#8
    t.video.t = 0x616F#15 ∧ t.video.fineX = 5 ∧ t.video.w = false := by decide

/-- Section 3.2: the status read. -/
theorem test_status_read :
    let r := busRead (State.reset.setVideo { Video.reset [] with vblank := true, w := true }) 0x3FFA#16
    r.value = 0x80#8 ∧ r.state.video.vblank = false ∧ r.state.video.w = false := by decide

/-- Section 3.2: a palette read is immediate, the address wraps, and only index 0x10 aliases. -/
theorem test_palette :
    let r := busRead (screen [] [(0, 0x0F#8)] { Video.reset [] with v := 0x3F00#15, readBuffer := 0xB0#8 }) 0x2007#16
    r.value = 0x0F#8 ∧ r.state.video.readBuffer = 0xB0#8 ∧ r.state.video.v = 0x3F01#15 ∧
      (busRead (screen [] [] { Video.reset [] with v := 0x7FFF#15 }) 0x2007#16).state.video.v = 0 ∧
      videoRead (videoWrite State.reset 0x3F10#14 0x21#8) 0x3F00#14 = 0x21#8 ∧
      videoRead (videoWrite State.reset 0x3F14#14 0x17#8) 0x3F04#14 = 0x00#8 := by decide

/-- Section 3.3: the nametable cells of the four mirroring modes. -/
theorem test_nametables :
    ([0x2000#14, 0x2400#14, 0x2800#14, 0x2C00#14].map (nametableIndex .horizontal) = [0, 0, 0x400, 0x400]) ∧
      ([0x2000#14, 0x2400#14, 0x2800#14, 0x2C00#14].map (nametableIndex .vertical) = [0, 0x400, 0, 0x400]) ∧
      ([0x2000#14, 0x2400#14, 0x2800#14, 0x2C00#14].map (nametableIndex .singleLow) = [0, 0, 0, 0]) ∧
      ([0x3000#14, 0x2400#14, 0x2800#14, 0x2C00#14].map (nametableIndex .singleHigh) =
        [0x400, 0x400, 0x400, 0x400]) := by decide

/-- Section 1, S6: ten covering sprites, the eight lowest selected. -/
theorem test_sprite_cap :
    let ys := [(3, 93), (7, 100), (9, 94), (12, 95), (20, 96), (21, 97), (33, 98), (40, 99), (50, 100), (63, 93)]
    let oam := ys.foldl (fun m c => Memory.write m (4 * c.1) (BitVec.ofNat 8 c.2)) []
    selectSprites (Video.reset oam) 100 = [3, 7, 9, 12, 20, 21, 33, 40] := by
  decide +kernel

/-- Section 3.4: from reset the first render scanline starts after 341 dots, and 340 on an odd frame
with rendering enabled. -/
theorem test_line_length :
    lineLength (Video.reset []) = 341 ∧
      lineLength { Video.reset [] with oddFrame := true, mask := 0x08#8 } = 340 := by decide

/-- Section 1, S3: the length table's first two entries, and bit 0 of the status register. -/
theorem test_length_table :
    let on := busWrite State.reset 0x4015#16 0x01#8
    (busWrite on 0x4003#16 0x00#8).audio.pulse1.length = 10 ∧
      (busWrite on 0x4003#16 0x08#8).audio.pulse1.length = 254 ∧
      (busRead (busWrite on 0x4003#16 0x08#8) 0x4015#16).value = 0x01#8 ∧
      (busWrite State.reset 0x4003#16 0x08#8).audio.pulse1.length = 0 := by decide

/-- Section 1, S4, and section 3.5: the sample registers. -/
theorem test_sample_registers :
    let at_ (b : Byte) := (busWrite (busWrite State.reset 0x4012#16 b) 0x4013#16 b).audio.dmc
    (at_ 0x00#8).startLen = 1 ∧ (at_ 0x10#8).startLen = 257 ∧ (at_ 0xFF#8).startLen = 4081 ∧
      (at_ 0xFF#8).startAddr = 0xFFC0#16 ∧ (at_ 0x00#8).startAddr = 0xC000#16 := by decide

/-- A machine whose frame interrupt is raised. -/
def frameRaised : State := raiseFrameIrq State.reset

/-- Section 3.5: the frame interrupt is acknowledged by a status read, or by the inhibit bit. -/
theorem test_frame_interrupt :
    let r := busRead frameRaised 0x4015#16
    let t := busWrite frameRaised 0x4017#16 0x40#8
    r.value = 0x40#8 ∧ r.state.cpu.irq.any = false ∧ (busRead r.state 0x4015#16).value = 0x00#8 ∧
      t.audio.frame.irqInhibit = true ∧ t.audio.frame.irqFlag = false ∧ t.cpu.irq.any = false := by decide

/-- Section 3.5: step 29829 is the last of the 4-step mode, step 37281 of the 5-step mode. -/
theorem test_frame_steps :
    frameEvent .ntsc false 29829 = .last ∧ frameEvent .ntsc true 29829 = .nothing ∧
      frameEvent .ntsc true 37281 = .last ∧ frameEvent .pal false 33253 = .last := by decide

/-- Section 3.6: the bytes the eight reads of a captured controller give for the buttons 0x09, and the
first of those reads. -/
theorem test_controller_reads :
    ([0, 1, 2, 3, 4, 5, 6, 7].map fun k => padByte (bitOf 0x09#8 k)) =
        [0x41#8, 0x40#8, 0x40#8, 0x41#8, 0x40#8, 0x40#8, 0x40#8, 0x40#8] ∧
      (busRead (State.reset.setBus { State.reset.bus with pad0 := 0x09#8 }) 0x4016#16).value = 0x41#8 := by
  decide

/-- A machine with a mapper variant, program and graphics banks. -/
def mapped (regs : MapperRegs) (prg chr : Nat) : State :=
  let s := State.reset.setMapper { regs := regs, chrRam := [] }
  { s with cart := { s.cart with prgBanks := prg, chrBanks := chr, mapperId := regs.id } }

/-- Section 3.7: variants (a), (c) and (d). -/
theorem test_bank_switching :
    let c := mapped (.prgSwitch 0) 8 0
    let t := busWrite c 0x8000#16 0x0B#8
    let d := busWrite (mapped (.chrSwitch 0) 2 4) 0x8000#16 0x06#8
    prgIndex (mapped .fixed 2 0).cart .fixed 0xC000#16 = 0x4000 ∧
      prgIndex c.cart c.mapper.regs 0x8000#16 = 0 ∧ prgIndex c.cart c.mapper.regs 0xC000#16 = 0x1C000 ∧
      prgIndex t.cart t.mapper.regs 0x8000#16 = 0x0C000 ∧ chrIndex d.cart d.mapper.regs 0 = 0x4000 := by decide

/-- Section 3.7: variant (b), five writes to 0xE000, and the reset write. -/
theorem test_serial_mapper :
    let w (s : State) (v : Byte) : State := busWrite s 0xE000#16 v
    let s := mapped (.serial SerialRegs.reset) 8 0
    let t := w (w (w (w (w s 0x01#8) 0x00#8) 0x01#8) 0x00#8) 0x00#8
    t.mapper.regs = .serial { SerialRegs.reset with prgSel := 5 } ∧
      (busWrite (w (w (w s 0x01#8) 0x01#8) 0x01#8) 0x8000#16 0x80#8).mapper.regs = .serial SerialRegs.reset ∧
      prgIndex s.cart s.mapper.regs 0x8000#16 = 0 ∧ prgIndex s.cart s.mapper.regs 0xC000#16 = 7 * 0x4000 := by
  decide

/-- A header of one program bank (R101). -/
def romHeader : List Byte :=
  [0x4E#8, 0x45#8, 0x53#8, 0x1A#8, 0x01#8, 0x00#8, 0x00#8, 0x00#8, 0x00#8, 0x00#8, 0x00#8, 0x00#8, 0x00#8, 0x00#8,
   0x00#8, 0x00#8]

/-- R570: a cartridge that is none (no program bank) starts no session, whatever its mapper id. -/
theorem test_invalid_cartridge :
    startSession { Launch.blank with cart := { Cartridge.blank with prgBanks := 0 } } =
        .error .invalidCartridge ∧
      startSession { Launch.blank with cart := { Cartridge.blank with prgBanks := 0, mapperId := 9 } } =
        .error .invalidCartridge := by decide

/-- Section 1, S2: the right magic is accepted, a wrong one refused. -/
theorem test_loader (body : List Byte) (h : body.length = 16384) :
    loadCartridge (some (romHeader ++ body)) = .ok (cartridgeOf (romHeader ++ body)) ∧
      loadCartridge (some (0x4E#8 :: 0x45#8 :: 0x53#8 :: 0x00#8 :: (romHeader.drop 4 ++ body))) =
        .error .badMagic := by
  simp [loadCartridge, romHeader, fileSize, headerByte, h, bitOf]

/-! ## Witnesses: for each statement with hypotheses, a state and operands that meet them together, clause
by clause at the ends of the ranges -/

theorem witness_DecodeInvertsEncode :
    (Instr.jmp (.ind 0xFFFF#16)).wf = true ∧ (Instr.unrecognized 0xFF#8).wf = true ∧
      (Instr.lda (.mem (.izy 0x00#8))).wf = true := by decide

theorem witness_DecodingIsTotalAndFaithful :
    decode [0x4C#8, 0xFF#8, 0xFF#8, 0x00#8] = .ok (.jmp (.abs 0xFFFF#16), [0x00#8]) ∧
      0xFF#8 ∈ unrecognizedOpcodes ∧ 0xFE#8 ∉ unrecognizedOpcodes := ⟨rfl, by decide, by decide⟩

/-- A machine with `LDA #$10` in work RAM at 0x0000, where PC is. -/
def ready : State := State.reset.setBus { State.reset.bus with ram := memoryOf [(0, 0xA9#8), (1, 0x10#8)] }

theorem bytesAt_ready : BytesAt ready [0xA9#8, 0x10#8] := by
  intro k b h
  match k, h with
  | 0, h => cases h; decide
  | 1, h => cases h; decide
  | k + 2, h => simp at h

theorem witness_FetchReadsInstructionBytes :
    decode [0xA9#8, 0x10#8] = .ok (.lda (.imm 0x10#8), []) ∧ BytesAt ready [0xA9#8, 0x10#8] :=
  ⟨rfl, bytesAt_ready⟩

/-- A fetch from a register with a side effect (0x2002 reads as 0, the opcode of BRK): it is a read. -/
theorem test_fetch_from_device :
    let s := (State.reset.setPc 0x2002#16).setVideo { State.reset.video with w := true }
    (fetchInstr s).instr = .brk ∧ (fetchInstr s).state.cpu.pc = 0x2003#16 ∧
      (fetchInstr s).state.video.w = false := by decide

theorem witness_StepRunsDecodedInstruction :
    decode [0xA9#8, 0x10#8] = .ok (.lda (.imm 0x10#8), []) ∧ BytesAt ready [0xA9#8, 0x10#8] ∧
      ready.sched.divProcessor = 0 ∧ ready.cpu.pending = 0 ∧ poll ready.cpu = .instruction ∧
      orderOf ready.params.engineOrder = .processor :: [.video, .audio] :=
  ⟨rfl, bytesAt_ready, by decide⟩

theorem witness_ProcessorStepOrder :
    0 < (State.reset.setPending 1).cpu.pending ∧
      ((State.reset.setNmi true).cpu.pending = 0 ∧ (State.reset.setNmi true).cpu.nmi = true) ∧
      (let s := (frameRaised.setP (flagsOf 0))
       s.cpu.pending = 0 ∧ s.cpu.nmi = false ∧ s.cpu.irq.frame = true ∧ s.cpu.p.i = false) ∧
      (frameRaised.cpu.pending = 0 ∧ frameRaised.cpu.nmi = false ∧ frameRaised.cpu.p.i = true) ∧
      (let s := (State.reset.setP (flagsOf 0))
       s.cpu.pending = 0 ∧ s.cpu.nmi = false ∧
         (s.cpu.irq.frame = false ∧ s.cpu.irq.dmc = false ∧ s.cpu.irq.mapper = false)) := by decide

theorem witness_InterruptSequences :
    ((State.reset.setNmi true).cpu.pending = 0 ∧ (State.reset.setNmi true).cpu.nmi = true) ∧
      (let s := (frameRaised.setP (flagsOf 0))
       s.cpu.pending = 0 ∧ s.cpu.nmi = false ∧ s.cpu.irq.any = true ∧ s.cpu.p.i = false) := by decide

/-- The frames of the store, push and jump statements: plain memory, and addresses a store does and
does not touch, at the ends of the windows. -/
theorem witness_frames :
    plainMemory State.reset 0x0000#16 = true ∧ plainMemory State.reset 0x1FFF#16 = true ∧
      plainMemory State.reset 0xFFFF#16 = true ∧ plainMemory State.reset 0x2000#16 = false ∧
      windowOf 0x1FFF#16 = .ram 0x7FF#11 ∧ storeTouches 0x0000#16 0x1800#16 = true ∧
      storeTouches 0x0000#16 0x0001#16 = false ∧ storeTouches 0x7FFF#16 0x6000#16 = false ∧
      storeTouches (stackSlot State.reset 0) 0x0100#16 = false ∧
      storeTouches (stackSlot State.reset 1) 0x0100#16 = false ∧
      storeTouches (stackSlot State.reset 2) 0x0100#16 = false ∧
      windowOf 0x8000#16 = .rom ∧ windowOf 0x2007#16 = .video 7 ∧ windowOf 0x4014#16 = .spriteDma := by decide

theorem witness_FlagInstructionsWriteOneFlag :
    (∃ t, exec .cli frameRaised = .next t) ∧ ∃ t, exec .sei frameRaised = .next t := ⟨⟨_, rfl⟩, _, rfl⟩

theorem witness_NoOperations : 0x02#8 ∈ unrecognizedOpcodes ∧ 0xFF#8 ∈ unrecognizedOpcodes := by decide

theorem witness_EveryInstructionCostsItsRow :
    decode [0x8D#8, 0x14#8, 0x40#8] = .ok (.sta (.abs 0x4014#16), []) ∧
      (Instr.sta (.abs 0x4014#16)).isBranch = false ∧
      ∃ t, exec (.sta (.abs 0x4014#16)) State.reset = .next t := ⟨rfl, rfl, _, rfl⟩

theorem witness_OnlyListedInstructionsWrite :
    ∃ t, exec .nop State.reset = .next t ∧ Instr.nop.writesA = false ∧ Instr.nop.writesX = false ∧
      Instr.nop.writesY = false ∧ Instr.nop.writesSp = false ∧ Instr.nop.writesPc = false ∧
      Instr.nop.writesC = false ∧ Instr.nop.writesZN = false ∧ Instr.nop.writesI = false ∧
      Instr.nop.writesD = false ∧ Instr.nop.writesV = false := ⟨_, rfl, by decide⟩

theorem witness_EveryInstructionMemoryFrame :
    (∃ t, exec (.sta (.abs 0x0200#16)) State.reset = .next t) ∧
      (Instr.sta (.abs 0x0200#16)).storedAt State.reset = [0x0200#16] ∧
      storeTouches 0x0200#16 0x0201#16 = false ∧ plainMemory State.reset 0x0201#16 = true :=
  ⟨⟨_, rfl⟩, by decide⟩

theorem witness_SavedStateComesBack :
    (∃ t u, exec (.jsr 0x9000#16) State.reset = .next t ∧ exec .rts t = .next u) ∧
      (∃ t u, exec .brk State.reset = .next t ∧ exec .rti t = .next u) ∧
      (∃ t u, exec .pha State.reset = .next t ∧ exec .pla (t.setA 0x55#8) = .next u) ∧
      ∃ t u, exec .php State.reset = .next t ∧ exec .plp (t.setP (flagsOf 0b111111#6)) = .next u :=
  ⟨⟨_, _, rfl, rfl⟩, ⟨_, _, rfl, rfl⟩, ⟨_, _, rfl, rfl⟩, _, _, rfl, rfl⟩

/-- A machine whose sample would run past 0xFFFF, only the Audio Engine being due. -/
def badSample : State :=
  (State.reset.setAudio
      { Audio.reset with dmc := { Dmc.reset with curAddr := 0xFFFF#16, remaining := 2 } }).setSched
    { divProcessor := 1, divVideo := 1, divAudio := 0 }

theorem witness_OnlyTheSampleReaderStops : ∃ r, step badSample = .refused r := ⟨_, rfl⟩

theorem witness_WorkRamMirrors :
    (0x0000#16).toNat < 0x2000 ∧ (0x1FFF#16).toNat < 0x2000 ∧
      (0x07FF#16).toNat % 2048 = (0x1FFF#16).toNat % 2048 ∧
      (0x0000#16).toNat % 2048 ≠ (0x1FFF#16).toNat % 2048 := by decide

/-- A machine whose cartridge has save RAM, enabled and protected as given. -/
def saving (enabled locked : Bool) : State :=
  let s := State.reset
  { s with
    cart := { s.cart with battery := true }
    params := { s.params with prgRamEnabled := enabled, prgRamWriteProtected := locked } }

theorem witness_SaveRamAndUnmappedAddresses :
    (0x6000 ≤ (0x6000#16).toNat ∧ (0x7FFF#16).toNat < 0x8000) ∧ State.reset.cart.battery = false ∧
      ((saving false false).cart.battery = true ∧ (saving false false).params.prgRamEnabled = false) ∧
      ((saving true true).cart.battery = true ∧ (saving true true).params.prgRamEnabled = true ∧
        (saving true true).params.prgRamWriteProtected = true) ∧
      ((saving true false).params.prgRamEnabled = true ∧
        (saving true false).params.prgRamWriteProtected = false) ∧
      (0x4018 ≤ (0x4018#16).toNat ∧ (0x5FFF#16).toNat < 0x6000) ∧
      (0x4000 ≤ (0x4000#16).toNat ∧ (0x4014#16).toNat ≤ 0x4014) ∧
      (0x2000 ≤ (0x2001#16).toNat ∧ (0x3FFE#16).toNat < 0x4000) ∧
      ((0x2001#16).toNat % 8 = 1 ∧ (0x2003#16).toNat % 8 = 3 ∧ (0x2005#16).toNat % 8 = 5 ∧
        (0x3FFE#16).toNat % 8 = 6 ∧ (0x3FFA#16).toNat % 8 = 2) := by decide

/-- Addresses that are not listed at the ends of the listed windows, and 0x4015 left out. -/
theorem witness_ReadsChangeOnlyListedDevices :
    (0x1FFF#16).toNat < 0x2000 ∧ (0x2000#16).toNat % 8 ≠ 2 ∧ (0x2000#16).toNat % 8 ≠ 7 ∧
      0x4018#16 ≠ 0x4015#16 ∧ 0x4018#16 ≠ 0x4016#16 ∧ 0x4018#16 ≠ 0x4017#16 ∧
      ¬(0x6000 ≤ (0x4018#16).toNat) ∧ ¬((0x4018#16).toNat < 0x4000) := by decide

theorem witness_SpriteDmaCopiesAPage :
    ∀ i : Byte, plainMemory State.reset (mkWord 0x02#8 i) = true := by decide

theorem witness_SerialMapperCommits :
    (mapped (.serial SerialRegs.reset) 8 0).mapper.regs = .serial SerialRegs.reset ∧
      SerialRegs.reset.shift = 0 ∧ SerialRegs.reset.count = 0 ∧
      (0x8000 ≤ (0x8000#16).toNat ∧ (0x9FFF#16).toNat < 0xA000) ∧
      (0xA000 ≤ (0xA000#16).toNat ∧ (0xBFFF#16).toNat < 0xC000) ∧
      (0xC000 ≤ (0xC000#16).toNat ∧ (0xDFFF#16).toNat < 0xE000) ∧ 0xE000 ≤ (0xFFFF#16).toNat ∧
      (0x7F#8).toNat < 128 ∧ 128 ≤ (0x80#8).toNat := by decide

theorem witness_ProgramBanks :
    0x8000 ≤ (0x8000#16).toNat ∧ (0xBFFF#16).toNat < 0xC000 ∧
      ((mapped .fixed 1 0).mapper.regs = .fixed ∧ (mapped .fixed 1 0).cart.prgBanks = 1) ∧
      (mapped (.prgSwitch 7) 8 0).mapper.regs = .prgSwitch 7 ∧
      (mapped (.chrSwitch 0) 2 4).mapper.regs = .chrSwitch 0 ∧
      (mapped (.serial SerialRegs.reset) 8 0).mapper.regs = .serial SerialRegs.reset := by decide

theorem witness_BankPointersStayInBounds :
    State.reset.mapperOk = true ∧ (mapped (.prgSwitch 7) 8 0).mapperOk = true ∧
      (mapped (.chrSwitch 3) 2 4).mapperOk = true ∧
      (mapped (.serial SerialRegs.reset) 8 0).mapperOk = true ∧ 0x8000 ≤ (0x8000#16).toNat := by decide

theorem witness_VideoAddressSpace :
    (0x2000 ≤ (0x2000#14).toNat ∧ (0x3EFF#14).toNat < 0x3F00) ∧ 0x3F00 ≤ (0x3F00#14).toNat ∧
      0x3F00 ≤ (0x3FFF#14).toNat ∧ (0x1FFF#14).toNat < 0x2000 ∧
      (mapped .fixed 2 0).mapper.regs = .fixed ∧ (mapped (.chrSwitch 3) 2 4).mapper.regs = .chrSwitch 3 ∧
      (mapped (.serial SerialRegs.reset) 8 0).mapper.regs = .serial SerialRegs.reset ∧
      decide ((mapped .fixed 2 0).cart.chrBanks = 0) = true ∧
      decide ((mapped .fixed 2 1).cart.chrBanks = 0) = false ∧
      ¬(0x2000 ≤ (0x1FFF#14).toNat ∧ (0x1FFF#14).toNat < 0x3F00) ∧
      ¬(0x2000 ≤ (0x3F00#14).toNat ∧ (0x3F00#14).toNat < 0x3F00) := by decide

theorem witness_VideoControlStatusAndSpriteMemory :
    (0x2000 ≤ (0x2000#16).toNat ∧ (0x3FF8#16).toNat < 0x4000) ∧ (0x2000#16).toNat % 8 = 0 ∧
      (0x3FF8#16).toNat % 8 = 0 ∧ (0x2002#16).toNat % 8 = 2 ∧ (0x3FFA#16).toNat % 8 = 2 ∧
      (0x2001#16).toNat % 8 = 1 ∧ (0x3FF9#16).toNat % 8 = 1 ∧
      (0x2003#16).toNat % 8 = 3 ∧ (0x3FFC#16).toNat % 8 = 4 ∧ (0x3FFC#16).toNat < 0x4000 := by decide

theorem witness_TwoWriteRegisters :
    (0x2000 ≤ (0x2005#16).toNat ∧ (0x3FFE#16).toNat < 0x4000) ∧ (0x2005#16).toNat % 8 = 5 ∧
      (0x3FFE#16).toNat % 8 = 6 ∧ State.reset.video.w = false ∧
      (State.reset.setVideo { Video.reset [] with w := true }).video.w = true := by decide

theorem witness_VideoDataRegister :
    (0x2000 ≤ (0x2007#16).toNat ∧ (0x3FFF#16).toNat < 0x4000) ∧ (0x2007#16).toNat % 8 = 7 ∧
      (0x3FFF#16).toNat % 8 = 7 ∧ (BitVec.ofNat 14 (0x3EFF#15).toNat : BitVec 14).toNat < 0x3F00 ∧
      0x3F00 ≤ (BitVec.ofNat 14 (0x7F00#15).toNat : BitVec 14).toNat := by decide

/-- A Video Engine at a position. -/
def at_ (scanline dot : Nat) (mask : Byte) (odd : Bool) : Video :=
  { Video.reset [] with stage := stageOf scanline, scanline := scanline, dot := dot, mask := mask, oddFrame := odd }

theorem video_ok_at (scanline dot : Nat) (mask : Byte) (odd : Bool) (h : scanline ≤ 261) (k : dot ≤ 340) :
    (at_ scanline dot mask odd).Ok := ⟨h, k, rfl, by simp [at_, Video.reset], by simp [at_, Video.reset], by simp [at_, Video.reset]⟩

theorem witness_SpriteSelectionTakesTheLowestEight :
    let s := State.reset.setVideo (at_ 239 340 0x00#8 false)
    s.video = at_ 239 340 0x00#8 false ∧ (at_ 239 340 0x00#8 false).stage = .render ∧
      (at_ 239 340 0x00#8 false).scanline = 239 ∧ (at_ 239 340 0x00#8 false).dot = 340 ∧
      (∃ i, i < 64 ∧ (Memory.read s.video.oam (4 * i)).toNat ≤ 239) := ⟨rfl, rfl, rfl, rfl, 63, by decide⟩

/-- Positions at the ends of a scanline and of the frame, the short line among them. -/
theorem witness_DotAndScanlineAdvance :
    (at_ 261 338 0x08#8 true).Ok ∧ (at_ 261 339 0x08#8 false).Ok ∧ (at_ 261 339 0x08#8 true).Ok ∧
      (at_ 260 340 0x00#8 false).Ok ∧ (0x08#8).toNat / 8 % 4 ≠ 0 ∧ ¬(0x00#8).toNat / 8 % 4 ≠ 0 :=
  ⟨video_ok_at _ _ _ _ (by decide) (by decide), video_ok_at _ _ _ _ (by decide) (by decide),
    video_ok_at _ _ _ _ (by decide) (by decide), video_ok_at _ _ _ _ (by decide) (by decide), by decide⟩

/-- A Video Engine at a visible dot with one sprite on it, the first of the line. -/
def showing : Video :=
  { at_ 10 1 0x1E#8 false with
    oam := memoryOf [(0, 0x05#8), (1, 0x01#8), (3, 0x00#8)], lineSprites := [0] }

theorem witness_VisibleDotShowsPixel :
    (State.reset.setVideo showing).video.Ok ∧
      (showing.scanline < 240 ∧ 1 ≤ showing.dot ∧ showing.dot ≤ 256) ∧
      (∀ i ∈ showing.lineSprites,
        (Memory.read showing.oam (4 * i + 0)).toNat + 1 ≤ 10 ∧
          10 < (Memory.read showing.oam (4 * i + 0)).toNat + 1 + 8) ∧
      (State.reset.setVideo (at_ 240 340 0x00#8 false)).video.Ok :=
  ⟨⟨by decide, by decide, by decide, by decide, by decide, by decide⟩, by decide, by decide,
    video_ok_at _ _ _ _ (by decide) (by decide)⟩

theorem witness_VerticalBlankRaisesNmi :
    (State.reset.setVideo (at_ 241 1 0x00#8 false)).video.Ok ∧
      (State.reset.setVideo (at_ 261 1 0x00#8 false)).video.Ok ∧
      (at_ 261 1 0x00#8 false).scanline = 261 ∧ (at_ 261 1 0x00#8 false).dot = 1 :=
  ⟨video_ok_at _ _ _ _ (by decide) (by decide), video_ok_at _ _ _ _ (by decide) (by decide), rfl, rfl⟩

theorem witness_ControllersShiftOutButtons :
    (State.reset.setBus { State.reset.bus with strobe := true }).bus.strobe = true ∧ (0x00#8).toNat % 2 = 0 ∧
      State.reset.bus.strobe = false ∧ (0x01#8).toNat % 2 = 1 := by decide

/-- An Audio Engine at a cycle of the frame sequencer. -/
def sequencing (cycle : Nat) (inhibit : Bool) : State :=
  State.reset.setAudio
    { Audio.reset with frame := { cycle := cycle, mode5 := false, irqInhibit := inhibit, irqFlag := false } }

theorem witness_FrameSequencerInterrupts :
    (∃ t, audioStep (sequencing 29829 false) = .next t) ∧ (∃ t, audioStep (sequencing 29828 true) = .next t) ∧
      (∃ t, audioStep (sequencing 14913 false) = .next t) ∧
      0x8000 ≤ (sequencing 29829 false).audio.dmc.curAddr.toNat ∧ lastStepCycle .ntsc false = 29829 ∧
      (0x7F#8).toNat < 128 ∧ 128 ≤ (0x80#8).toNat := ⟨⟨_, rfl⟩, ⟨_, rfl⟩, ⟨_, rfl⟩, by decide⟩

theorem witness_AudioUnitClocks :
    (let e := { Envelope.reset with start := true }; e.start = true) ∧
      (Envelope.reset.start = false ∧ Envelope.reset.div.toNat = 0) ∧
      (let e := { Envelope.reset with div := 1 }; e.start = false ∧ 0 < e.div.toNat) ∧
      (0 < Dmc.reset.bitsLeft ∧ 1 < Dmc.reset.bitsLeft) ∧
      (let d := { Dmc.reset with bitsLeft := 1, buffer := some 0x5A#8 }
       0 < d.bitsLeft ∧ d.bitsLeft = 1 ∧ d.buffer = some 0x5A#8) ∧
      (let d := { Dmc.reset with bitsLeft := 1 }
       0 < d.bitsLeft ∧ d.bitsLeft = 1 ∧ d.buffer = none) := by decide

theorem witness_SampleReaderFetches :
    (Dmc.reset.remaining = 0) ∧
      (badSample.audio.dmc.buffer = none ∧ 0 < badSample.audio.dmc.remaining ∧
        0x10000 < badSample.audio.dmc.curAddr.toNat + badSample.audio.dmc.remaining) ∧
      (let d := { Dmc.reset with curAddr := 0xFFFF#16, remaining := 1 }
       d.buffer = none ∧ 0 < d.remaining ∧ d.curAddr.toNat + d.remaining ≤ 0x10000 ∧
         0x8000 ≤ d.curAddr.toNat) := by decide

theorem witness_SchedulerDividers :
    (∃ t, step (State.reset.setPending 1) = .next t) ∧ 0 < (State.reset.setPending 1).cpu.pending ∧
      let s := State.reset.setSched { divProcessor := 11, divVideo := 3, divAudio := 0 }
      let u := State.reset.setSched { divProcessor := 0, divVideo := 3, divAudio := 11 }
      ((∃ t, step s = .next t) ∧ s.sched.divProcessor ≠ 0 ∧ s.sched.divVideo ≠ 0) ∧
        (∃ t, step u = .next t) ∧ u.sched.divAudio ≠ 0 :=
  ⟨⟨_, rfl⟩, by decide, ⟨⟨_, rfl⟩, by decide⟩, ⟨_, rfl⟩, by decide⟩

theorem enginesOk_reset : State.reset.EnginesOk where
  video := video_ok_at 261 0 0x00#8 false (by decide) (by decide)
  audio :=
    ⟨by decide, by decide, by decide, by decide, by decide, by decide, by decide, by decide, by decide, by decide,
      by decide, Nat.lt_of_lt_of_le (by decide) (Nat.le_add_right 17 _)⟩
  sched := ⟨by decide, by decide, by decide⟩

/-- The premises of the invariants' statements, met at reset with a step that answers a next state. -/
theorem witness_invariants :
    (∃ t, step State.reset = .next t) ∧ State.reset.memoriesWf = true ∧ State.reset.mapperOk = true ∧
      State.reset.EnginesOk ∧ State.reset.LinesAgree :=
  ⟨⟨_, rfl⟩, by decide, by decide, enginesOk_reset, ⟨rfl, rfl, rfl, by decide, by decide⟩⟩

theorem witness_ResetMeetsTheInvariants :
    startSession Launch.blank = .ok State.reset ∧ Launch.blank.cart.valid = true ∧
      (Memory.wf 2048 Launch.blank.ram && Memory.wf 2048 Launch.blank.vram && Memory.wf 32 Launch.blank.palette &&
        Memory.wf 8192 Launch.blank.prgRam && Memory.wf 8192 Launch.blank.chrRam &&
        Memory.wf 256 Launch.blank.oam) = true := ⟨rfl, by decide⟩

theorem witness_ResetValues :
    (∃ s, startSession { Launch.blank with cart := { Cartridge.blank with mapperId := 0 } } = .ok s) ∧
      (∃ s, startSession { Launch.blank with cart := { Cartridge.blank with mapperId := 1 } } = .ok s) ∧
      (∃ s, startSession { Launch.blank with cart := { Cartridge.blank with mapperId := 2 } } = .ok s) ∧
      ∃ s, startSession { Launch.blank with cart := { Cartridge.blank with mapperId := 3 } } = .ok s :=
  ⟨⟨_, rfl⟩, ⟨_, rfl⟩, ⟨_, rfl⟩, _, rfl⟩

/-- A file with its one program bank, good or with one defect. -/
theorem witness_SessionStart :
    (∃ c, loadCartridge (some (romHeader ++ List.replicate 16384 0xEA#8)) = .ok c) ∧
      romHeader.take 4 = [0x4E#8, 0x45#8, 0x53#8, 0x1A#8] ∧ (romHeader.getD 4 0).toNat ≠ 0 ∧
      (romHeader.getD 6 0).toNat / 4 % 2 = 0 ∧
      (16 + (romHeader.getD 4 0).toNat * 16384 + (romHeader.getD 5 0).toNat * 8192 = 16 + 16384 ∧
        romHeader.length = 16) ∧
      (romHeader.set 3 0x00#8).take 4 ≠ [0x4E#8, 0x45#8, 0x53#8, 0x1A#8] ∧
      ¬((romHeader.set 4 0x00#8).getD 4 0).toNat ≠ 0 ∧
      ¬((romHeader.set 6 0x04#8).getD 6 0).toNat / 4 % 2 = 0 ∧
      (Launch.blank.cart.valid = true ∧ Launch.blank.cart.mapperId ≤ 3) ∧
      (let c := { Cartridge.blank with mapperId := 4 }
       c.valid = true ∧ 3 < c.mapperId) ∧
      (let c := { Cartridge.blank with prgBanks := 0 }
       c.valid = false) :=
  ⟨⟨_, (test_loader _ List.length_replicate).1⟩, by decide⟩

end Sys2Proof.Tests
end

section
/-! PROOF. What an instruction is built of: accesses of the bus and writes to the registers and flags the
spec lists for it (R21 to R25). A property that these keep is kept by the instruction (`KeptByOps.exec`). -/

namespace Sys2Proof.Machine

/-- The flags `q` differ from `p` at most in those that instruction `i` may write (R25). -/
structure FlagsListed (i : Instr) (p q : Flags) : Prop where
  carry : i.writesC = false → q.c = p.c
  zeroNegative : i.writesZN = false → q.z = p.z ∧ q.n = p.n
  inhibit : i.writesI = false → q.i = p.i
  decimal : i.writesD = false → q.d = p.d
  overflow : i.writesV = false → q.v = p.v

/-- Instruction `i` may write every flag. -/
def WritesAllFlags (i : Instr) : Prop :=
  i.writesC = true ∧ i.writesZN = true ∧ i.writesI = true ∧ i.writesD = true ∧ i.writesV = true

/-- The property `I` of states is kept by the operations that instruction `i` may use: accesses of the bus,
the pending-cycle counter, and writes to the registers and flags the spec lists for it. -/
structure KeptByOps (i : Instr) (I : State → Prop) : Prop where
  read : ∀ {s} addr, I s → I (busRead s addr).state
  write : ∀ {s} addr v, I s → I (busWrite s addr v)
  setPending : ∀ {s} n, I s → I (s.setPending n)
  setA : i.writesA = true → ∀ {s} v, I s → I (s.setA v)
  setX : i.writesX = true → ∀ {s} v, I s → I (s.setX v)
  setY : i.writesY = true → ∀ {s} v, I s → I (s.setY v)
  setSp : i.writesSp = true → ∀ {s} v, I s → I (s.setSp v)
  setPc : i.writesPc = true → ∀ {s} v, I s → I (s.setPc v)
  setP : ∀ {s} {q : Flags}, FlagsListed i s.cpu.p q → I s → I (s.setP q)

/-! ### The meanings of the stack instructions, as `exec` gives them -/

theorem exec_jsr (target : Word) (s : State) :
    exec (.jsr target) s = .next (charge ((pushWord s (s.cpu.pc - 1)).setPc target) 6) := rfl

theorem exec_rts (s : State) :
    exec .rts s = .next (charge ((pullWord s).state.setPc ((pullWord s).value + 1)) 6) := rfl

theorem exec_brk (s : State) :
    exec .brk s = .next (charge (takeInterrupt .brk (s.setPc (s.cpu.pc + 1))) 7) := rfl

theorem exec_rti (s : State) : exec .rti s = .next (charge (returnFromInterrupt s) 6) := rfl

theorem exec_pha (s : State) : exec .pha s = .next (charge (push s s.cpu.a) 3) := rfl

theorem exec_pla (s : State) :
    exec .pla s = .next (charge (setZN ((pull s).state.setA (pull s).value) (pull s).value) 4) := rfl

theorem exec_php (s : State) : exec .php s = .next (charge (push s (s.cpu.p.pushed true)) 3) := rfl

theorem exec_plp (s : State) : exec .plp s = .next (charge (pullFlags s) 4) := rfl

/-- What holds of the state an instruction is known to answer holds of its answer. -/
theorem of_exec_eq {i : Instr} {I : State → Prop} {s t u : State} (hu : exec i s = .next u)
    (ht : exec i s = .next t) (h : I u) : I t := by
  rw [hu, Host.Outcome.next.injEq] at ht
  exact ht ▸ h

/-! ### The flags each operation writes -/

theorem FlagsListed.ofAll {i : Instr} (h : WritesAllFlags i) (p q : Flags) : FlagsListed i p q := by
  obtain ⟨hc, hz, hi, hd, hv⟩ := h
  exact ⟨by simp [hc], by simp [hz], by simp [hi], by simp [hd], by simp [hv]⟩

theorem flagsListed_setZN {i : Instr} (h : i.writesZN = true) (p : Flags) (v : Byte) :
    FlagsListed i p (p.setZN v) :=
  ⟨fun _ => rfl, by simp [h], fun _ => rfl, fun _ => rfl, fun _ => rfl⟩

theorem flagsListed_carry {i : Instr} (h : i.writesC = true) (p : Flags) (b : Bool) :
    FlagsListed i p { p with c := b } :=
  ⟨by simp [h], fun _ => ⟨rfl, rfl⟩, fun _ => rfl, fun _ => rfl, fun _ => rfl⟩

theorem flagsListed_inhibit {i : Instr} (h : i.writesI = true) (p : Flags) (b : Bool) :
    FlagsListed i p { p with i := b } :=
  ⟨fun _ => rfl, fun _ => ⟨rfl, rfl⟩, by simp [h], fun _ => rfl, fun _ => rfl⟩

theorem flagsListed_decimal {i : Instr} (h : i.writesD = true) (p : Flags) (b : Bool) :
    FlagsListed i p { p with d := b } :=
  ⟨fun _ => rfl, fun _ => ⟨rfl, rfl⟩, fun _ => rfl, by simp [h], fun _ => rfl⟩

theorem flagsListed_overflow {i : Instr} (h : i.writesV = true) (p : Flags) (b : Bool) :
    FlagsListed i p { p with v := b } :=
  ⟨fun _ => rfl, fun _ => ⟨rfl, rfl⟩, fun _ => rfl, fun _ => rfl, by simp [h]⟩

theorem flagsListed_carryZN {i : Instr} (hc : i.writesC = true) (h : i.writesZN = true) (p : Flags)
    (c : Bool) (v : Byte) : FlagsListed i p ({ p with c := c }.setZN v) :=
  ⟨by simp [hc], by simp [h], fun _ => rfl, fun _ => rfl, fun _ => rfl⟩

theorem flagsListed_addCarry {i : Instr} (hc : i.writesC = true) (h : i.writesZN = true)
    (hv : i.writesV = true) (p : Flags) (a m : Byte) : FlagsListed i p (addCarry p a m).flags :=
  ⟨by simp [hc], by simp [h], fun _ => rfl, fun _ => rfl, by simp [hv]⟩

theorem flagsListed_compare {i : Instr} (hc : i.writesC = true) (h : i.writesZN = true) (p : Flags)
    (r m : Byte) : FlagsListed i p (compareFlags p r m) :=
  ⟨by simp [hc], by simp [h], fun _ => rfl, fun _ => rfl, fun _ => rfl⟩

/-! ### The shared operations -/

section
variable {i : Instr} {I : State → Prop} (K : KeptByOps i I) {s t : State}
include K

theorem KeptByOps.charge (n : Nat) (h : I s) : I (charge s n) := K.setPending _ h

theorem KeptByOps.setZN (hz : i.writesZN = true) (v : Byte) (h : I s) : I (setZN s v) :=
  K.setP (flagsListed_setZN hz _ v) h

theorem KeptByOps.readPair (lo hi : Word) (h : I s) : I (readPair s lo hi).state :=
  K.read _ (K.read _ h)

theorem KeptByOps.resolve (m : Addr) (h : I s) : I (resolve m s).state := by
  cases m with
  | izx a => exact K.readPair _ _ h
  | izy a => exact K.readPair _ _ h
  | _ => exact h

theorem KeptByOps.readMem (m : Addr) (h : I s) : I (readMem m s).state := K.read _ (K.resolve m h)

theorem KeptByOps.readSrc (src : Src) (h : I s) : I (readSrc src s).state := by
  cases src with
  | imm v => exact h
  | mem m => exact K.readMem m h

theorem KeptByOps.jumpTarget (target : JumpTarget) (h : I s) : I (jumpTarget target s).state := by
  cases target with
  | abs a => exact h
  | ind p => exact K.readPair _ _ h

theorem KeptByOps.push (hs : i.writesSp = true) (v : Byte) (h : I s) : I (push s v) :=
  K.setSp hs _ (K.write _ v h)

theorem KeptByOps.pull (hs : i.writesSp = true) (h : I s) : I (pull s).state :=
  K.read _ (K.setSp hs _ h)

theorem KeptByOps.pushWord (hs : i.writesSp = true) (w : Word) (h : I s) : I (pushWord s w) :=
  K.push hs _ (K.push hs _ h)

theorem KeptByOps.pullWord (hs : i.writesSp = true) (h : I s) : I (pullWord s).state :=
  K.pull hs (K.pull hs h)

theorem KeptByOps.pullFlags (hs : i.writesSp = true) (hf : WritesAllFlags i) (h : I s) :
    I (pullFlags s) :=
  K.setP (.ofAll hf _ _) (K.pull hs h)

/-- A read-modify-write: the flags come from the read, and the write between keeps them. -/
theorem KeptByOps.modifyMem {op : Flags → Byte → AluResult} (m : RmwAddr)
    (hf : ∀ p v, FlagsListed i p (op p v).flags) (h : I s) : I (modifyMem m op s) := by
  refine K.setP ?_ (K.write _ _ (K.read _ (K.resolve _ h)))
  rw [(busWrite_keeps _ _ _).p]
  exact hf _ _

theorem KeptByOps.returnFromInterrupt (hs : i.writesSp = true) (hf : WritesAllFlags i)
    (hpc : i.writesPc = true) (h : I s) : I (returnFromInterrupt s) :=
  K.setPc hpc _ (K.pullWord hs (K.pullFlags hs hf h))

/-! ### The instruction classes -/

theorem KeptByOps.transferWith {put : State → Byte → State} {v : Byte}
    (hp : ∀ {u} v, I u → I (put u v)) (hz : i.writesZN = true) (h : I s)
    (ht : transferWith put v s = .next t) : I t := by
  cases ht
  exact K.charge _ (K.setZN hz _ (hp _ h))

theorem KeptByOps.stepWith {put : State → Byte → State} {v : Byte}
    (hp : ∀ {u} v, I u → I (put u v)) (hz : i.writesZN = true) (h : I s)
    (ht : stepWith put v s = .next t) : I t := by
  cases ht
  exact K.charge _ (K.setZN hz _ (hp _ h))

theorem KeptByOps.loadWith {put : State → Byte → State} {src : Src}
    (hp : ∀ {u} v, I u → I (put u v)) (hz : i.writesZN = true) (h : I s)
    (ht : loadWith put src s = .next t) : I t := by
  cases ht
  exact K.charge _ (K.setZN hz _ (hp _ (K.readSrc src h)))

theorem KeptByOps.storeWith {get : State → Byte} {dst : Addr} (h : I s)
    (ht : storeWith get dst s = .next t) : I t := by
  cases ht
  exact K.charge _ (K.write _ _ (K.resolve dst h))

theorem KeptByOps.arithWith {op : Flags → Byte → Byte → AluResult} {src : Src}
    (ha : i.writesA = true) (hf : ∀ p a m, FlagsListed i p (op p a m).flags) (h : I s)
    (ht : arithWith op src s = .next t) : I t := by
  cases ht
  exact K.charge _ (K.setP (hf _ _ _) (K.setA ha _ (K.readSrc src h)))

theorem KeptByOps.compareWith {get : State → Byte} {src : Src} (hc : i.writesC = true)
    (hz : i.writesZN = true) (h : I s) (ht : compareWith get src s = .next t) : I t := by
  cases ht
  exact K.charge _ (K.setP (flagsListed_compare hc hz _ _ _) (K.readSrc src h))

theorem KeptByOps.logicWith {op : Byte → Byte → Byte} {src : Src} (ha : i.writesA = true)
    (hz : i.writesZN = true) (h : I s) (ht : logicWith op src s = .next t) : I t := by
  cases ht
  exact K.charge _ (K.setZN hz _ (K.setA ha _ (K.readSrc src h)))

theorem KeptByOps.chargeModifyMem {op : Flags → Byte → AluResult} {m : RmwAddr} {n : Nat}
    (hf : ∀ p v, FlagsListed i p (op p v).flags) (h : I s)
    (ht : Host.Outcome.next (Machine.charge (Machine.modifyMem m op s) n) = (.next t : Result)) : I t := by
  cases ht
  exact K.charge _ (K.modifyMem m hf h)

theorem KeptByOps.branchIf {taken : Bool} {off : Byte} (hpc : i.writesPc = true) (h : I s)
    (ht : branchIf taken off s = .next t) : I t := by
  cases ht
  refine K.charge _ ?_
  cases taken with
  | true => exact K.setPc hpc _ h
  | false => exact h

theorem KeptByOps.flagWith {q : Flags} (h : I s) (ht : flagWith q s = .next t)
    (hf : FlagsListed i s.cpu.p q) : I t := by
  cases ht
  exact K.charge _ (K.setP hf h)

end

/-- The interrupt sequence uses what BRK may use (R404). -/
theorem KeptByOps.takeInterrupt {I : State → Prop} (K : KeptByOps .brk I) {s : State}
    (k : InterruptKind) (h : I s) : I (takeInterrupt k s) :=
  K.setPc rfl _ <| K.readPair _ _ <|
    K.setP (flagsListed_inhibit rfl _ _) <|
      K.push rfl _ (K.pushWord rfl _ h)

/-- A shift or rotate of the accumulator or of memory (R162, R174): `mk` is its constructor. -/
theorem KeptByOps.shift {mk : ShiftDst → Instr} {op : Flags → Byte → AluResult} {dst : ShiftDst}
    {I : State → Prop} (K : KeptByOps (mk dst) I) {s t : State}
    (ha : (mk .acc).writesA = true) (hf : ∀ p v, FlagsListed (mk dst) p (op p v).flags) (h : I s)
    (ht : .next (Machine.charge (modifyShift dst op s) (shiftCost dst)) = (.next t : Result)) : I t := by
  cases ht
  refine K.charge _ ?_
  cases dst with
  | acc => exact K.setP (hf _ _) (K.setA ha _ h)
  | mem m => exact K.modifyMem m hf h

/-- A property kept by the operations an instruction may use is kept by the instruction. -/
theorem KeptByOps.exec {i : Instr} {I : State → Prop} (K : KeptByOps i I) {s t : State} (h : I s)
    (ht : exec i s = .next t) : I t := by
  cases i with
  | lda src => exact K.loadWith (K.setA rfl) rfl h ht
  | ldx src => exact K.loadWith (K.setX rfl) rfl h ht
  | ldy src => exact K.loadWith (K.setY rfl) rfl h ht
  | sta dst => exact K.storeWith h ht
  | stx dst => exact K.storeWith h ht
  | sty dst => exact K.storeWith h ht
  | tax => exact K.transferWith (K.setX rfl) rfl h ht
  | tay => exact K.transferWith (K.setY rfl) rfl h ht
  | txa => exact K.transferWith (K.setA rfl) rfl h ht
  | tya => exact K.transferWith (K.setA rfl) rfl h ht
  | tsx => exact K.transferWith (K.setX rfl) rfl h ht
  | txs => cases ht; exact K.charge _ (K.setSp rfl _ h)
  | pha => exact of_exec_eq (exec_pha s) ht (K.charge _ (K.push rfl _ h))
  | php => exact of_exec_eq (exec_php s) ht (K.charge _ (K.push rfl _ h))
  | pla => exact of_exec_eq (exec_pla s) ht (K.charge _ (K.setZN rfl _ (K.setA rfl _ (K.pull rfl h))))
  | plp => exact of_exec_eq (exec_plp s) ht (K.charge _ (K.pullFlags rfl ⟨rfl, rfl, rfl, rfl, rfl⟩ h))
  | adc src => exact K.arithWith rfl (flagsListed_addCarry rfl rfl rfl) h ht
  | sbc src => exact K.arithWith rfl (fun p a m => flagsListed_addCarry rfl rfl rfl p a _) h ht
  | cmp src => exact K.compareWith (get := fun u => u.cpu.a) rfl rfl h ht
  | cpx src => exact K.compareWith (get := fun u => u.cpu.x) rfl rfl h ht
  | cpy src => exact K.compareWith (get := fun u => u.cpu.y) rfl rfl h ht
  | inc dst => exact K.chargeModifyMem (fun p v => flagsListed_setZN rfl p _) h ht
  | dec dst => exact K.chargeModifyMem (fun p v => flagsListed_setZN rfl p _) h ht
  | inx => exact K.stepWith (K.setX rfl) rfl h ht
  | iny => exact K.stepWith (K.setY rfl) rfl h ht
  | dex => exact K.stepWith (K.setX rfl) rfl h ht
  | dey => exact K.stepWith (K.setY rfl) rfl h ht
  | and src => exact K.logicWith rfl rfl h ht
  | ora src => exact K.logicWith rfl rfl h ht
  | eor src => exact K.logicWith rfl rfl h ht
  | bit src =>
    cases ht
    exact K.charge _ (K.setP ⟨fun _ => rfl, nofun, fun _ => rfl, fun _ => rfl, nofun⟩ (K.readMem src h))
  | asl dst => exact K.shift rfl (fun p v => flagsListed_carryZN rfl rfl p _ _) h ht
  | lsr dst => exact K.shift rfl (fun p v => flagsListed_carryZN rfl rfl p _ _) h ht
  | rol dst => exact K.shift rfl (fun p v => flagsListed_carryZN rfl rfl p _ _) h ht
  | ror dst => exact K.shift rfl (fun p v => flagsListed_carryZN rfl rfl p _ _) h ht
  | bcc off => exact K.branchIf rfl h ht
  | bcs off => exact K.branchIf rfl h ht
  | beq off => exact K.branchIf rfl h ht
  | bne off => exact K.branchIf rfl h ht
  | bmi off => exact K.branchIf rfl h ht
  | bpl off => exact K.branchIf rfl h ht
  | bvc off => exact K.branchIf rfl h ht
  | bvs off => exact K.branchIf rfl h ht
  | jmp target => cases ht; exact K.charge _ (K.setPc rfl _ (K.jumpTarget target h))
  | jsr target => exact of_exec_eq (exec_jsr target s) ht (K.charge _ (K.setPc rfl _ (K.pushWord rfl _ h)))
  | rts => exact of_exec_eq (exec_rts s) ht (K.charge _ (K.setPc rfl _ (K.pullWord rfl h)))
  | clc => exact K.flagWith h ht (flagsListed_carry rfl _ _)
  | sec => exact K.flagWith h ht (flagsListed_carry rfl _ _)
  | cli => exact K.flagWith h ht (flagsListed_inhibit rfl _ _)
  | sei => exact K.flagWith h ht (flagsListed_inhibit rfl _ _)
  | clv => exact K.flagWith h ht (flagsListed_overflow rfl _ _)
  | cld => exact K.flagWith h ht (flagsListed_decimal rfl _ _)
  | sed => exact K.flagWith h ht (flagsListed_decimal rfl _ _)
  | brk => exact of_exec_eq (exec_brk s) ht (K.charge _ (K.takeInterrupt .brk (K.setPc rfl _ h)))
  | rti =>
    exact of_exec_eq (exec_rti s) ht (K.charge _ (K.returnFromInterrupt rfl ⟨rfl, rfl, rfl, rfl, rfl⟩ rfl h))
  | nop => cases ht; exact K.charge _ h
  | unrecognized op => cases ht; exact K.charge _ h

end Sys2Proof.Machine
end

section
/-! PROOF. Registers and flags are written only by the listed instructions (R21, R22, R23, R25). -/

namespace Sys2Proof.Machine

theorem FlagsListed.refl (i : Instr) (p : Flags) : FlagsListed i p p :=
  ⟨fun _ => rfl, fun _ => ⟨rfl, rfl⟩, fun _ => rfl, fun _ => rfl, fun _ => rfl⟩

theorem FlagsListed.trans {i : Instr} {p q r : Flags} (h : FlagsListed i p q)
    (k : FlagsListed i q r) : FlagsListed i p r where
  carry w := (k.carry w).trans (h.carry w)
  zeroNegative w :=
    ⟨(k.zeroNegative w).1.trans (h.zeroNegative w).1, (k.zeroNegative w).2.trans (h.zeroNegative w).2⟩
  inhibit w := (k.inhibit w).trans (h.inhibit w)
  decimal w := (k.decimal w).trans (h.decimal w)
  overflow w := (k.overflow w).trans (h.overflow w)

/-- The registers and flags of `d` differ from those of `c` at most where instruction `i` may write
(R21, R22, R23, R25). -/
structure RegistersListed (i : Instr) (c d : Cpu) : Prop where
  a : i.writesA = false → d.a = c.a
  x : i.writesX = false → d.x = c.x
  y : i.writesY = false → d.y = c.y
  sp : i.writesSp = false → d.sp = c.sp
  pc : i.writesPc = false → d.pc = c.pc
  p : FlagsListed i c.p d.p
  nmi : d.nmi = c.nmi

theorem RegistersListed.refl (i : Instr) (c : Cpu) : RegistersListed i c c :=
  ⟨fun _ => rfl, fun _ => rfl, fun _ => rfl, fun _ => rfl, fun _ => rfl, .refl i c.p, rfl⟩

theorem RegistersListed.busAccess {i : Instr} {c : Cpu} {s t : State} (h : RegistersListed i c s.cpu)
    (k : WriteKeeps s t) : RegistersListed i c t.cpu where
  a w := k.a.trans (h.a w)
  x w := k.x.trans (h.x w)
  y w := k.y.trans (h.y w)
  sp w := k.sp.trans (h.sp w)
  pc w := k.pc.trans (h.pc w)
  p := k.p ▸ h.p
  nmi := k.nmi.trans h.nmi

theorem keptByOps_registersListed (i : Instr) (c : Cpu) :
    KeptByOps i fun s => RegistersListed i c s.cpu where
  read addr h := h.busAccess (busRead_keeps _ addr).toWrite
  write addr v h := h.busAccess (busWrite_keeps _ addr v)
  setPending _ h := { h with }
  setA w _ _ h := { h with a := by simp [w] }
  setX w _ _ h := { h with x := by simp [w] }
  setY w _ _ h := { h with y := by simp [w] }
  setSp w _ _ h := { h with sp := by simp [w] }
  setPc w _ _ h := { h with pc := by simp [w] }
  setP f h := { h with p := h.p.trans f }

/-- Settles O26: the operations an instruction is built of write only what the spec lists for it. -/
theorem onlyListedInstructionsWrite : Obligations.OnlyListedInstructionsWrite := by
  intro i s t ht
  obtain ⟨ha, hx, hy, hsp, hpc, hp, hn⟩ := (keptByOps_registersListed i s.cpu).exec (.refl i s.cpu) ht
  exact ⟨ha, hx, hy, hsp, hpc, hp.carry, hp.zeroNegative, hp.inhibit, hp.decimal, hp.overflow, hn⟩

end Sys2Proof.Machine
end

section
/-! PROOF. What a tick is built of (R400, R561): a property that the accesses of the bus, the writes to the
registers and the two other engines' steps keep is kept by every step of an engine. -/

namespace Sys2Proof.Machine

/-- The property `I` of states is kept by what the engines' steps are made of: accesses of the bus, writes
to the processor's registers other than the asserted sources, the steps of the two other engines. -/
structure KeptByEngines (I : State → Prop) : Prop where
  read : ∀ {s} addr, I s → I (busRead s addr).state
  write : ∀ {s} addr v, I s → I (busWrite s addr v)
  setCpu : ∀ {s} {c : Cpu}, c.irq = s.cpu.irq → I s → I (s.setCpu c)
  videoStep : ∀ {s}, I s → I (videoStep s)
  audioStep : ∀ {s t}, I s → audioStep s = .next t → I t

/-- The property `I` of states is kept by everything a tick is made of (R561). -/
structure KeptByTick (I : State → Prop) : Prop extends KeptByEngines I where
  reload : ∀ {s} e, I s → I (setCounter e (divider s.cart.region e - 1) s)
  countDown : ∀ {s} e, I s → I (setCounter e (s.sched.counter e - 1) s)
  clearOut : ∀ {s}, I s → I (s.setOut Output.none)

theorem KeptByEngines.keptByOps {I : State → Prop} (K : KeptByEngines I) (i : Instr) : KeptByOps i I where
  read := K.read
  write := K.write
  setPending _ h := K.setCpu rfl h
  setA _ _ _ h := K.setCpu rfl h
  setX _ _ _ h := K.setCpu rfl h
  setY _ _ _ h := K.setCpu rfl h
  setSp _ _ _ h := K.setCpu rfl h
  setPc _ _ _ h := K.setCpu rfl h
  setP _ h := K.setCpu rfl h

theorem KeptByEngines.setPc {I : State → Prop} (K : KeptByEngines I) {s : State} (pc : Word) (h : I s) :
    I (s.setPc pc) := K.setCpu rfl h

theorem KeptByEngines.fetch8 {I : State → Prop} (K : KeptByEngines I) {s : State} (h : I s) :
    I (fetch8 s).state := K.setPc _ (K.read _ h)

theorem KeptByEngines.fetchInstr {I : State → Prop} (K : KeptByEngines I) {s : State} (h : I s) :
    I (fetchInstr s).state := by
  unfold Machine.fetchInstr
  dsimp only
  split
  · exact K.fetch8 h
  · exact K.fetch8 (K.fetch8 h)
  · exact K.fetch8 (K.fetch8 (K.fetch8 h))

/-- An interrupt sequence and its charge (R404) keep what the engines keep. -/
theorem KeptByEngines.interrupt {I : State → Prop} (K : KeptByEngines I) {s : State} (k : InterruptKind)
    (n : Nat) (h : I s) : I (charge (takeInterrupt k s) n) :=
  (K.keptByOps .brk).charge n ((K.keptByOps .brk).takeInterrupt k h)

theorem KeptByEngines.processorStep {I : State → Prop} (K : KeptByEngines I) {s t : State} (h : I s)
    (ht : processorStep s = .next t) : I t := by
  unfold Machine.processorStep executionStep at ht
  split at ht
  · cases ht
    exact K.setCpu rfl h
  · split at ht
    · rw [Host.Outcome.next.injEq] at ht
      subst ht
      exact K.interrupt .nmi 7 (K.setCpu rfl h)
    · rw [Host.Outcome.next.injEq] at ht
      subst ht
      exact K.interrupt .irq 7 h
    · exact (K.keptByOps _).exec (K.fetchInstr h) ht

theorem KeptByEngines.stepEngine {I : State → Prop} (K : KeptByEngines I) {e : Engine} {s t : State}
    (h : I s) (ht : stepEngine e s = .next t) : I t := by
  cases e with
  | processor => exact K.processorStep h ht
  | video =>
    cases ht
    exact K.videoStep h
  | audio => exact K.audioStep h ht

end Sys2Proof.Machine
end

section
/-! PROOF. What a step of the Video Engine (R463) and of the Audio Engine (R501) leaves unchanged. -/

namespace Sys2Proof.Machine

/-- What a dot of the Video Engine leaves unchanged (R463 to R471): everything but the Video Engine, the NMI
latch and the output. -/
structure DotKeeps (s t : State) : Prop where
  cpu : t.cpu = { s.cpu with nmi := t.cpu.nmi }
  bus : t.bus = s.bus
  mapper : t.mapper = s.mapper
  audio : t.audio = s.audio
  sched : t.sched = s.sched
  cart : t.cart = s.cart
  params : t.params = s.params
  draws : t.draws = s.draws

theorem DotKeeps.refl (s : State) : DotKeeps s s := ⟨rfl, rfl, rfl, rfl, rfl, rfl, rfl, rfl⟩

theorem dotWork_keeps (s : State) : DotKeeps s (dotWork s) := by
  have hs := DotKeeps.refl s
  unfold dotWork
  split
  · unfold preRenderDot
    dsimp only
    split_ifs <;> exact { hs with }
  · unfold renderDot visibleDot
    dsimp only
    split_ifs <;> exact { hs with }
  · exact hs
  · unfold verticalBlankDot
    dsimp only
    split_ifs <;> exact { hs with cpu := rfl }

@[simp] theorem scanlineNotify_eq (b : Bool) (m : MapperState) : scanlineNotify b m = m := by
  unfold scanlineNotify
  split <;> rfl

theorem advanceDot_keeps {s t : State} (h : DotKeeps s t) : DotKeeps s (advanceDot t) := by
  unfold advanceDot endLine
  dsimp only
  split
  · exact { h with mapper := by simpa using h.mapper }
  · exact { h with }

theorem videoStep_keeps (s : State) : DotKeeps s (videoStep s) := advanceDot_keeps (dotWork_keeps s)

theorem endOfSample_keeps {s t : State} (h : WriteKeeps s t) : WriteKeeps s (endOfSample t) := by
  unfold endOfSample
  dsimp only
  split_ifs <;> exact { h with }

/-- A fetched sample byte (R525) changes what a bus access can change. -/
theorem fetchSample_writeKeeps (s : State) : WriteKeeps s (fetchSample s) := by
  have h := (skipCycles_keeps s s.params.dmcStall).trans (busRead_keeps _ s.audio.dmc.curAddr).toWrite
  unfold fetchSample
  dsimp only
  split
  · exact endOfSample_keeps { h with }
  · exact { h with }

theorem dmcReader_next {s t : State} (h : dmcReader s = .next t) : t = s ∨ t = fetchSample s := by
  unfold dmcReader at h
  dsimp only at h
  split_ifs at h <;> cases h
  · exact .inr rfl
  · exact .inl rfl

theorem dmcReader_writeKeeps {s t : State} (h : dmcReader s = .next t) : WriteKeeps s t := by
  obtain rfl | rfl := dmcReader_next h
  · exact .refl _
  · exact fetchSample_writeKeeps s

theorem sequencerWork_keeps (e : FrameEvent) (s : State) : WriteKeeps s (sequencerWork e s) := by
  have hs := WriteKeeps.refl s
  cases e with
  | last =>
    simp only [sequencerWork, raiseFrameIrq]
    split <;> exact { hs with }
  | _ => exact { hs with }

theorem finishAudioStep_keeps (s : State) : WriteKeeps s ((finishAudioStep s).setOut s.out) := by
  unfold finishAudioStep
  dsimp only
  generalize hw : sequencerWork _ s = w
  have k : WriteKeeps s w := hw ▸ sequencerWork_keeps _ s
  exact { k with out := rfl }

/-- A step of the Audio Engine (R501) changes, besides the output, what a bus access can change. -/
theorem audioStep_keeps {s t : State} (h : audioStep s = .next t) : WriteKeeps s (t.setOut s.out) := by
  obtain ⟨u, hu, rfl⟩ := audioStep_next h
  have k : WriteKeeps s u := { dmcReader_writeKeeps hu with }
  rw [← k.out]
  exact k.trans (finishAudioStep_keeps u)

end Sys2Proof.Machine
end

section
/-! PROOF. The cartridge and the parameters never change (R35, R102, R104), and the induction over a tick
that every invariant of a run uses (`KeptByTick.step`). -/

namespace Sys2Proof.Machine

/-- The cartridge and the parameters are `c` and `p`. -/
def HasSession (c : Cartridge) (p : Params) (s : State) : Prop := s.cart = c ∧ s.params = p

theorem WriteKeeps.hasSession {s t : State} {c : Cartridge} {p : Params} (k : WriteKeeps s t)
    (h : HasSession c p s) : HasSession c p t := ⟨k.cart.trans h.1, k.params.trans h.2⟩

theorem keptByEngines_hasSession (c : Cartridge) (p : Params) : KeptByEngines (HasSession c p) where
  read addr h := (busRead_keeps _ addr).toWrite.hasSession h
  write addr v h := (busWrite_keeps _ addr v).hasSession h
  setCpu _ h := h
  videoStep h := ⟨(videoStep_keeps _).cart.trans h.1, (videoStep_keeps _).params.trans h.2⟩
  audioStep h ht := (audioStep_keeps ht).hasSession h

theorem keptByTick_hasSession (c : Cartridge) (p : Params) : KeptByTick (HasSession c p) where
  toKeptByEngines := keptByEngines_hasSession c p
  reload _ h := h
  countDown _ h := h
  clearOut h := h

theorem stepEngine_cart {e : Engine} {s t : State} (h : stepEngine e s = .next t) : t.cart = s.cart :=
  ((keptByEngines_hasSession s.cart s.params).stepEngine ⟨rfl, rfl⟩ h).1

theorem andThen_next {r : Result} {k : State → Result} {t : State} (h : andThen r k = .next t) :
    ∃ s, r = .next s ∧ k s = .next t := by
  cases r with
  | next s => exact ⟨s, rfl, h⟩
  | fault f => cases h
  | refused x => cases h

section
variable {I : State → Prop} (K : KeptByTick I) {s t : State}
include K

theorem KeptByTick.tickEngine {e : Engine} (h : I s) (ht : tickEngine e s = .next t) : I t := by
  unfold Machine.tickEngine at ht
  split at ht
  · obtain ⟨u, hu, hk⟩ := andThen_next ht
    cases hk
    rw [← stepEngine_cart hu]
    exact K.reload e (K.stepEngine h hu)
  · cases ht
    exact K.countDown e h

theorem KeptByTick.tickEngines {es : List Engine} (h : I s) (ht : tickEngines es s = .next t) : I t := by
  induction es generalizing s with
  | nil => cases ht; exact h
  | cons e es ih =>
    obtain ⟨u, hu, hk⟩ := andThen_next ht
    exact ih (K.tickEngine h hu) hk

/-- A property that everything a tick is made of keeps is kept by every step (R560, R561). -/
theorem KeptByTick.step (h : I s) (ht : step s = .next t) : I t := K.tickEngines (K.clearOut h) ht

end

/-- Settles O52: no bus access and no engine's step writes the cartridge or the parameters. -/
theorem everyStepKeepsTheSession : Obligations.EveryStepKeepsTheSession :=
  fun s _ ht => (keptByTick_hasSession s.cart s.params).step ⟨rfl, rfl⟩ ht

end Sys2Proof.Machine
end

section
/-! PROOF. The asserted sources and the audio interrupt flags move together (R29, R406). -/

namespace Sys2Proof.Machine

/-- The lines and flags of `t` are those of `s`. -/
theorem State.LinesAgree.of_eq {s t : State} (h : s.LinesAgree) (hi : t.cpu.irq = s.cpu.irq)
    (hf : t.audio.frame.irqFlag = s.audio.frame.irqFlag)
    (hn : t.audio.frame.irqInhibit = s.audio.frame.irqInhibit)
    (hd : t.audio.dmc.irqFlag = s.audio.dmc.irqFlag) (he : t.audio.dmc.irqEn = s.audio.dmc.irqEn) :
    t.LinesAgree where
  frame := by rw [hi, hf]; exact h.frame
  dmc := by rw [hi, hd]; exact h.dmc
  mapper := by rw [hi]; exact h.mapper
  inhibited := by rw [hn, hf]; exact h.inhibited
  disabled := by rw [he, hd]; exact h.disabled

theorem State.LinesAgree.setPending {s : State} (h : s.LinesAgree) (n : Nat) :
    (s.setPending n).LinesAgree := { h with }

/-- A read of the bus other than of the audio status keeps the asserted sources and the Audio Engine. -/
theorem busRead_irq_audio {s : State} {addr : Word} (h : windowOf addr ≠ .audioStatus) :
    (busRead s addr).state.cpu.irq = s.cpu.irq ∧ (busRead s addr).state.audio = s.audio := by
  unfold busRead
  split
  case h_6 hw => exact absurd hw h
  case h_2 =>
    unfold readVideoRegister readVramData
    split
    case h_4 => dsimp only; split <;> exact ⟨rfl, rfl⟩
    all_goals exact ⟨rfl, rfl⟩
  case h_7 => unfold readPad0; split <;> exact ⟨rfl, rfl⟩
  case h_8 => unfold readPad1; split <;> exact ⟨rfl, rfl⟩
  case h_9 => unfold readSaveRam; split_ifs <;> exact ⟨rfl, rfl⟩
  all_goals exact ⟨rfl, rfl⟩

theorem State.LinesAgree.busRead {s : State} (h : s.LinesAgree) (addr : Word) :
    (busRead s addr).state.LinesAgree := by
  by_cases hw : windowOf addr = .audioStatus
  · -- The status read clears both flags and releases both lines (R540).
    simp only [Machine.busRead, hw]
    exact ⟨rfl, rfl, h.mapper, fun _ => rfl, fun _ => rfl⟩
  · obtain ⟨hi, ha⟩ := busRead_irq_audio hw
    exact h.of_eq hi (by rw [ha]) (by rw [ha]) (by rw [ha]) (by rw [ha])

theorem State.LinesAgree.writeVideoRegister {s : State} (h : s.LinesAgree) (reg : BitVec 3) (v : Byte) :
    (writeVideoRegister s reg v).LinesAgree := by
  unfold Machine.writeVideoRegister
  split
  case h_7 =>
    unfold writeVramData videoWrite
    split_ifs <;> exact { h with }
  all_goals exact { h with }

theorem Dmc.writeReg_irq (d : Dmc) {off : BitVec 2} (h : off ≠ 0) (v : Byte) :
    (d.writeReg off v).irqEn = d.irqEn ∧ (d.writeReg off v).irqFlag = d.irqFlag := by
  unfold Dmc.writeReg
  split
  case h_1 h0 => exact absurd (BitVec.eq_of_toNat_eq h0) h
  all_goals exact ⟨rfl, rfl⟩

/-- The DMC's first register drops the flag and the line together with the enable (R523). -/
theorem State.LinesAgree.writeChannel {s : State} (h : s.LinesAgree) (reg : BitVec 5) (v : Byte) :
    (writeChannel s reg v).LinesAgree := by
  unfold Machine.writeChannel
  dsimp only
  split
  case h_5 =>
    by_cases h0 : (field reg 0 2 : BitVec 2) = 0
    · rw [h0]
      cases hv : bitOf v 7 with
      | false => exact ⟨h.frame, by simp [setDmcIrq, Dmc.writeReg, hv], h.mapper, h.inhibited,
          fun _ => by simp [setDmcIrq, Dmc.writeReg, hv]⟩
      | true => exact ⟨h.frame, by simp [Dmc.writeReg, hv, h.dmc], h.mapper, h.inhibited,
          by simp [Dmc.writeReg, hv]⟩
    · obtain ⟨he, hf⟩ := s.audio.dmc.writeReg_irq h0 v
      rw [if_neg fun k => h0 k.1]
      exact h.of_eq rfl rfl rfl hf he
  all_goals exact { h with }

theorem State.LinesAgree.spriteCopy (page : Byte) (n : Nat) :
    ∀ {s : State}, s.LinesAgree → (spriteCopy page n s).LinesAgree := by
  induction n with
  | zero => exact id
  | succ n ih => exact fun h => ih { h.busRead _ with }

theorem State.LinesAgree.writeChannelEnable {s : State} (h : s.LinesAgree) (v : Byte) :
    (writeChannelEnable s v).LinesAgree :=
  ⟨h.frame, rfl, h.mapper, h.inhibited, fun _ => rfl⟩

/-- The frame counter control write (R505) on the sequencer, the DMC and the asserted sources. -/
theorem writeFrameControl_irq (s : State) (v : Byte) :
    (writeFrameControl s v).audio.frame =
        { cycle := 0, mode5 := bitOf v 7, irqInhibit := bitOf v 6
          irqFlag := !bitOf v 6 && s.audio.frame.irqFlag } ∧
      (writeFrameControl s v).audio.dmc = s.audio.dmc ∧
      (writeFrameControl s v).cpu.irq =
        { s.cpu.irq with frame := !bitOf v 6 && s.cpu.irq.frame } := by
  unfold writeFrameControl
  cases bitOf v 6 <;> cases bitOf v 7 <;> exact ⟨rfl, rfl, rfl⟩

theorem State.LinesAgree.writeFrameControl {s : State} (h : s.LinesAgree) (v : Byte) :
    (writeFrameControl s v).LinesAgree := by
  obtain ⟨hf, hd, hi⟩ := writeFrameControl_irq s v
  constructor
  case frame => simp [hf, hi, h.frame]
  case dmc => simp [hd, hi, h.dmc]
  case mapper => simp [hi, h.mapper]
  case inhibited => simp +contextual [hf]
  case disabled => rw [hd]; exact h.disabled

theorem State.LinesAgree.busWrite {s : State} (h : s.LinesAgree) (addr : Word) (v : Byte) :
    (busWrite s addr v).LinesAgree := by
  unfold Machine.busWrite
  split
  case h_2 reg _ => exact h.writeVideoRegister reg v
  case h_3 reg _ => exact h.writeChannel reg v
  case h_4 => exact (State.LinesAgree.spriteCopy v 256 h).setPending _
  case h_5 => exact h.writeChannelEnable v
  case h_6 => unfold writeStrobe; dsimp only; split <;> exact { h with }
  case h_7 => exact h.writeFrameControl v
  case h_9 => unfold writeSaveRam; split <;> exact { h with }
  case h_10 => unfold writeMapper; dsimp only; split <;> exact { h with }
  all_goals exact { h with }

/-! The Audio Engine's step: only the end of a sample and the sequencer's last step raise a flag, each with
its line and only while it is enabled. -/

theorem Dmc.clockTimer_irq (d : Dmc) (r : Region) :
    (d.clockTimer r).irqEn = d.irqEn ∧ (d.clockTimer r).irqFlag = d.irqFlag := by
  unfold Dmc.clockTimer Dmc.clockOutput
  dsimp only
  split
  · split
    · cases d.buffer <;> exact ⟨rfl, rfl⟩
    · exact ⟨rfl, rfl⟩
  · exact ⟨rfl, rfl⟩

theorem clockTimers_dmc_irq (a : Audio) (r : Region) :
    (clockTimers a r).dmc.irqEn = a.dmc.irqEn ∧ (clockTimers a r).dmc.irqFlag = a.dmc.irqFlag := by
  unfold clockTimers
  dsimp only
  split
  · exact a.dmc.clockTimer_irq r
  · exact ⟨rfl, rfl⟩

theorem State.LinesAgree.endOfSample {s : State} (h : s.LinesAgree) : (endOfSample s).LinesAgree := by
  unfold Machine.endOfSample
  dsimp only
  split_ifs with hl he
  · exact { h with }
  · exact ⟨h.frame, rfl, h.mapper, h.inhibited, fun k => nomatch he.symm.trans k⟩
  · exact h

theorem State.LinesAgree.fetchSample {s : State} (h : s.LinesAgree) : (fetchSample s).LinesAgree := by
  have hr := (h.setPending (s.cpu.pending + s.params.dmcStall)).busRead s.audio.dmc.curAddr
  unfold Machine.fetchSample
  dsimp only
  split
  · exact State.LinesAgree.endOfSample { hr with }
  · exact { hr with }

theorem State.LinesAgree.sequencerWork {s : State} (h : s.LinesAgree) (e : FrameEvent) :
    (sequencerWork e s).LinesAgree := by
  cases e with
  | last =>
    simp only [Machine.sequencerWork, raiseFrameIrq]
    split
    case isTrue => exact { h with }
    case isFalse hn => exact ⟨rfl, h.dmc, h.mapper, fun k => absurd k hn, h.disabled⟩
  | _ => exact { h with }

theorem State.LinesAgree.audioStep {s t : State} (h : s.LinesAgree) (ht : audioStep s = .next t) :
    t.LinesAgree := by
  obtain ⟨u, hu, rfl⟩ := audioStep_next ht
  have hs : (s.setAudio (clockTimers s.audio s.cart.region)).LinesAgree := by
    obtain ⟨he, hf⟩ := clockTimers_dmc_irq s.audio s.cart.region
    exact h.of_eq rfl (by simp) (by simp) hf he
  have hk : u.LinesAgree := by
    obtain rfl | rfl := dmcReader_next hu
    · exact hs
    · exact hs.fetchSample
  exact { hk.sequencerWork (frameEvent u.cart.region u.audio.frame.mode5 u.audio.frame.cycle) with }

theorem State.LinesAgree.videoStep {s : State} (h : s.LinesAgree) : (videoStep s).LinesAgree := by
  have k := videoStep_keeps s
  have hi : (Machine.videoStep s).cpu.irq = s.cpu.irq := by rw [k.cpu]
  exact h.of_eq hi (by rw [k.audio]) (by rw [k.audio]) (by rw [k.audio]) (by rw [k.audio])

theorem keptByTick_linesAgree : KeptByTick State.LinesAgree where
  read addr h := h.busRead addr
  write addr v h := h.busWrite addr v
  setCpu hi h := h.of_eq hi rfl rfl rfl rfl
  videoStep h := h.videoStep
  audioStep h ht := h.audioStep ht
  reload _ h := { h with }
  countDown _ h := { h with }
  clearOut h := { h with }

/-- Settles O56: every access and every engine's step moves a flag and its line together. -/
theorem everyStepKeepsInterruptLines : Obligations.EveryStepKeepsInterruptLines :=
  fun _ _ h ht => keptByTick_linesAgree.step h ht

end Sys2Proof.Machine
end

section
/-! PROOF. Fetching (R66, R177): the reads of the opcode and the operand bytes, and what they decode to. -/

namespace Sys2Proof.Machine

@[simp] theorem setPc_setPc (s : State) (m n : Word) : (s.setPc m).setPc n = s.setPc n := rfl

/-- A byte fetched (R66): read at PC, with PC moved past it. -/
theorem fetch8_eq (s : State) :
    fetch8 s =
      { value := (busRead s s.cpu.pc).value
        state := (busRead s s.cpu.pc).state.setPc (s.cpu.pc + 1) } := by
  rw [fetch8, (busRead_keeps s s.cpu.pc).pc]

/-- A byte fetched where PC has been moved to `pc`. -/
theorem fetch8_setPc (s : State) (pc : Word) :
    fetch8 (s.setPc pc) =
      { value := (busRead s pc).value, state := (busRead s pc).state.setPc (pc + 1) } := by
  rw [fetch8_eq, State.setPc_pc, busRead_setPc, setPc_setPc]

/-- A byte of plain memory is read without any effect (R65). -/
theorem busRead_state_of_plainMemory {s : State} {addr : Word} (h : plainMemory s addr = true) :
    (busRead s addr).state = s := by
  unfold plainMemory at h
  unfold busRead
  cases hw : windowOf addr with
  | saveRam cell =>
    simp only [hw, Bool.and_eq_true] at h
    simp [readSaveRam, h]
  | ram | rom => rfl
  | _ => simp [hw] at h

section
variable (s : State)

/-- The read of the opcode byte, at PC (R66). -/
def fetchRead0 : ReadResult := busRead s s.cpu.pc

/-- The read of the first operand byte, after the opcode's. -/
def fetchRead1 : ReadResult := busRead (fetchRead0 s).state (s.cpu.pc + 1)

/-- The read of the second operand byte, after the first. -/
def fetchRead2 : ReadResult := busRead (fetchRead1 s).state (s.cpu.pc + 2)

theorem fetchRead0_keeps : ReadKeeps s (fetchRead0 s).state := busRead_keeps s _

theorem fetchRead1_keeps : ReadKeeps s (fetchRead1 s).state := (fetchRead0_keeps s).trans (busRead_keeps _ _)

theorem fetchRead2_keeps : ReadKeeps s (fetchRead2 s).state := (fetchRead1_keeps s).trans (busRead_keeps _ _)

theorem fetch8_first :
    fetch8 s = { value := (fetchRead0 s).value, state := (fetchRead0 s).state.setPc (s.cpu.pc + 1) } :=
  fetch8_eq s

theorem fetch8_second :
    fetch8 ((fetchRead0 s).state.setPc (s.cpu.pc + 1)) =
      { value := (fetchRead1 s).value, state := (fetchRead1 s).state.setPc (s.cpu.pc + 2) } := by
  rw [fetch8_setPc, BitVec.add_assoc]
  rfl

theorem fetch8_third :
    fetch8 ((fetchRead1 s).state.setPc (s.cpu.pc + 2)) =
      { value := (fetchRead2 s).value, state := (fetchRead2 s).state.setPc (s.cpu.pc + 3) } := by
  rw [fetch8_setPc, BitVec.add_assoc]
  rfl

variable {s}

theorem fetchInstr_f1 {i : Instr} (h : formOf (fetchRead0 s).value = .f1 i) :
    fetchInstr s = { instr := i, state := (fetchRead0 s).state.setPc (s.cpu.pc + 1) } := by
  simp only [fetchInstr, fetch8_first s, h]

theorem fetchInstr_f2 {mk : Byte → Instr} (h : formOf (fetchRead0 s).value = .f2 mk) :
    fetchInstr s =
      { instr := mk (fetchRead1 s).value, state := (fetchRead1 s).state.setPc (s.cpu.pc + 2) } := by
  simp only [fetchInstr, fetch8_first s, fetch8_second, h]

theorem fetchInstr_f3 {mk : Word → Instr} (h : formOf (fetchRead0 s).value = .f3 mk) :
    fetchInstr s =
      { instr := mk (mkWord (fetchRead2 s).value (fetchRead1 s).value)
        state := (fetchRead2 s).state.setPc (s.cpu.pc + 3) } := by
  simp only [fetchInstr, fetch16, fetch8_first s, fetch8_second, fetch8_third, h]

/-- The fetched instruction is what the bytes read decode to, and the state is that of the reads with PC
past the bytes (R66, R177). -/
theorem fetchInstr_cases (s : State) :
    (decode [(fetchRead0 s).value] = .ok ((fetchInstr s).instr, []) ∧
        (fetchInstr s).state = (fetchRead0 s).state.setPc (s.cpu.pc + 1)) ∨
      (decode [(fetchRead0 s).value, (fetchRead1 s).value] = .ok ((fetchInstr s).instr, []) ∧
        (fetchInstr s).state = (fetchRead1 s).state.setPc (s.cpu.pc + 2)) ∨
      (decode [(fetchRead0 s).value, (fetchRead1 s).value, (fetchRead2 s).value] =
          .ok ((fetchInstr s).instr, []) ∧
        (fetchInstr s).state = (fetchRead2 s).state.setPc (s.cpu.pc + 3)) := by
  cases h : formOf (fetchRead0 s).value with
  | f1 i => exact .inl (by simp [fetchInstr_f1 h, decode, h, Form.read])
  | f2 mk => exact .inr (.inl (by simp [fetchInstr_f2 h, decode, h, Form.read]))
  | f3 mk => exact .inr (.inr (by simp [fetchInstr_f3 h, decode, h, Form.read]))

/-- Fetching is reading and then moving PC. -/
theorem fetchInstr_state (s : State) :
    ∃ u pc, (fetchInstr s).state = u.setPc pc ∧ ReadKeeps s u := by
  obtain ⟨-, h⟩ | ⟨-, h⟩ | ⟨-, h⟩ := fetchInstr_cases s
  · exact ⟨_, _, h, fetchRead0_keeps s⟩
  · exact ⟨_, _, h, fetchRead1_keeps s⟩
  · exact ⟨_, _, h, fetchRead2_keeps s⟩

end

/-- Bytes that decode to one instruction and nothing more are those of its format (R160). -/
theorem decode_whole {bytes : List Byte} {i : Instr} (h : decode bytes = .ok (i, [])) :
    (∃ op, bytes = [op] ∧ formOf op = .f1 i) ∨
      (∃ op b mk, bytes = [op, b] ∧ formOf op = .f2 mk ∧ i = mk b) ∨
      ∃ op lo hi mk, bytes = [op, lo, hi] ∧ formOf op = .f3 mk ∧ i = mk (mkWord hi lo) := by
  obtain _ | ⟨op, rest⟩ := bytes
  · cases h
  · rw [decode] at h
    cases hf : formOf op with
    | f1 j =>
      rw [hf] at h
      cases h
      exact .inl ⟨op, rfl, hf⟩
    | f2 mk =>
      rw [hf] at h
      obtain _ | ⟨b, _⟩ := rest <;> cases h
      exact .inr (.inl ⟨op, b, mk, rfl, hf, rfl⟩)
    | f3 mk =>
      rw [hf] at h
      obtain _ | ⟨lo, _ | ⟨hi, _⟩⟩ := rest <;> cases h
      exact .inr (.inr ⟨op, lo, hi, mk, rfl, hf, rfl⟩)

/-- A byte of plain memory is read as it stands, with no effect. -/
theorem BytesAt.busRead {s : State} {bytes : List Byte} (h : BytesAt s bytes) {k : Nat} {b : Byte}
    (hk : bytes[k]? = some b) :
    busRead s (s.cpu.pc + BitVec.ofNat 16 k) = { value := b, state := s } := by
  obtain ⟨hp, hb⟩ := h k b hk
  have hs := busRead_state_of_plainMemory hp
  generalize Machine.busRead s (s.cpu.pc + BitVec.ofNat 16 k) = r at hb hs
  cases hb
  cases hs
  rfl

section
variable {s : State} {bytes : List Byte} (h : BytesAt s bytes) {b : Byte}
include h

theorem BytesAt.fetchRead0 (h0 : bytes[0]? = some b) : fetchRead0 s = { value := b, state := s } := by
  have e := h.busRead h0
  rwa [show s.cpu.pc + BitVec.ofNat 16 0 = s.cpu.pc from BitVec.add_zero _] at e

theorem BytesAt.fetchRead1 {b0 : Byte} (h0 : bytes[0]? = some b0) (h1 : bytes[1]? = some b) :
    fetchRead1 s = { value := b, state := s } := by
  rw [Machine.fetchRead1, h.fetchRead0 h0]
  exact h.busRead h1

theorem BytesAt.fetchRead2 {b0 b1 : Byte} (h0 : bytes[0]? = some b0) (h1 : bytes[1]? = some b1)
    (h2 : bytes[2]? = some b) : fetchRead2 s = { value := b, state := s } := by
  rw [Machine.fetchRead2, h.fetchRead1 h0 h1]
  exact h.busRead h2

end

/-- Fetching from plain memory (R66): the instruction its bytes decode to, with PC past them and nothing
else changed. -/
theorem fetchInstr_of_bytesAt {s : State} {bytes : List Byte} {i : Instr}
    (hd : decode bytes = .ok (i, [])) (h : BytesAt s bytes) :
    fetchInstr s = { instr := i, state := s.setPc (s.cpu.pc + BitVec.ofNat 16 bytes.length) } := by
  obtain ⟨op, rfl, hf⟩ | ⟨op, b, mk, rfl, hf, rfl⟩ | ⟨op, lo, hi, mk, rfl, hf, rfl⟩ := decode_whole hd
  · have e0 := h.fetchRead0 rfl
    rw [fetchInstr_f1 (by rw [e0]; exact hf), e0]
    rfl
  · have e0 := h.fetchRead0 rfl
    have e1 := h.fetchRead1 rfl rfl
    rw [fetchInstr_f2 (by rw [e0]; exact hf), e1]
    rfl
  · have e0 := h.fetchRead0 rfl
    have e1 := h.fetchRead1 rfl rfl
    have e2 := h.fetchRead2 rfl rfl rfl
    rw [fetchInstr_f3 (by rw [e0]; exact hf), e1, e2]
    rfl

/-- Settles O4: the three formats' reads, and what a read keeps. -/
theorem fetchReadsInstructionBytes : Obligations.FetchReadsInstructionBytes := by
  intro s
  obtain ⟨u, pc, hs, k⟩ := fetchInstr_state s
  refine ⟨fun _ _ hd hb => fetchInstr_of_bytesAt hd hb, fetchInstr_cases s, ?_, ?_⟩
  · rw [hs, State.setPc, k.cpu_eq]
  · rw [hs]
    exact k.memoryKept.trans_same (.ofCpu u _)

end Sys2Proof.Machine
end

section
/-! PROOF. A pull gives back what the push before it saved (R23, R26, R317, R318, R340, R341). -/

namespace Sys2Proof.Machine

/-- The pushed flag byte (R26): bit 5 is set, bit 4 is the given one, and a pull gives the flags back. -/
theorem pushed_bits (p : Flags) (b : Bool) :
    (p.pushed b).getLsbD 5 = true ∧ (p.pushed b).getLsbD 4 = b ∧ Flags.pulled (p.pushed b) = p := by
  obtain ⟨c, z, i, d, v, n⟩ := p
  revert b c z i d v n
  decide

/-- Bits 4 and 5 of a pulled byte do not matter (R26). -/
theorem pulled_xor (v : Byte) :
    Flags.pulled (v ^^^ 0x10#8) = Flags.pulled v ∧ Flags.pulled (v ^^^ 0x20#8) = Flags.pulled v := by
  revert v
  decide

theorem ne_sub_one (a : Byte) : a ≠ a - 1#8 := by bv_omega

theorem ne_sub_one_sub_one (a : Byte) : a ≠ a - 1#8 - 1#8 := by bv_omega

/-- A stack cell after a push (R23): the pushed byte where SP pointed, every other as before. -/
theorem read_stackCell_push (s : State) (v sp : Byte) :
    Memory.read (push s v).bus.ram (stackCell sp) =
      if sp = s.cpu.sp then v else Memory.read s.bus.ram (stackCell sp) := by
  simpa only [busRead_stackAddr] using busRead_push s v sp

/-- A pull after a push gives the byte back and SP where it was, whatever else happened between. -/
theorem pull_after_push {s t : State} {v : Byte} (hs : t.cpu.sp = (push s v).cpu.sp)
    (hr : t.bus.ram = (push s v).bus.ram) : pull t = { value := v, state := t.setSp s.cpu.sp } := by
  have h : t.cpu.sp + 1 = s.cpu.sp := by rw [hs, push_cpu]; exact BitVec.sub_add_cancel _ _
  rw [pull_eq, h, hr, read_stackCell_push, if_pos rfl]

/-- The same of a word: two bytes. -/
theorem pullWord_after_pushWord {s t : State} {w : Word} (hs : t.cpu.sp = (pushWord s w).cpu.sp)
    (hr : t.bus.ram = (pushWord s w).bus.ram) :
    pullWord t = { value := w, state := t.setSp s.cpu.sp } := by
  have h1 : t.cpu.sp + 1 = s.cpu.sp - 1 := by simp only [hs, pushWord, push_cpu]; bv_omega
  have h2 : t.cpu.sp + 2 = s.cpu.sp := by simp only [hs, pushWord, push_cpu]; bv_omega
  rw [pullWord_eq, h1, h2]
  simp [busRead_stackAddr, hr, pushWord, read_stackCell_push, ne_sub_one, mkWord_hiByte_loByte]

/-- The return from an interrupt after its sequence (R404, R341). -/
theorem returnFromInterrupt_after_takeInterrupt {s t : State} (k : InterruptKind)
    (hs : t.cpu.sp = (takeInterrupt k s).cpu.sp) (hr : t.bus.ram = (takeInterrupt k s).bus.ram) :
    returnFromInterrupt t = ((t.setSp s.cpu.sp).setP s.cpu.p).setPc s.cpu.pc := by
  simp only [takeInterrupt_eq, State.setPc_sp, State.setP_sp, State.setPc_bus, State.setP_bus] at hs hr
  have h1 : t.cpu.sp + 1 = s.cpu.sp - 1 - 1 := by simp only [hs, push_cpu]; bv_omega
  have h2 : t.cpu.sp + 2 = s.cpu.sp - 1 := by simp only [hs, push_cpu]; bv_omega
  have h3 : t.cpu.sp + 3 = s.cpu.sp := by simp only [hs, push_cpu]; bv_omega
  have hp := (pushed_bits s.cpu.p k.breakBit).2.2
  rw [returnFromInterrupt_eq, h1, h2, h3]
  simp [busRead_stackAddr, hr, read_stackCell_push, ne_sub_one, ne_sub_one_sub_one,
    mkWord_hiByte_loByte, hp]

theorem jsr_then_rts {target : Word} {s t u : State} (ht : exec (.jsr target) s = .next t)
    (hu : exec .rts t = .next u) :
    u.cpu.pc = s.cpu.pc ∧ u.cpu.sp = s.cpu.sp ∧ u.cpu.p = s.cpu.p := by
  rw [exec_jsr, Host.Outcome.next.injEq] at ht
  have back := pullWord_after_pushWord (s := s) (t := t) (w := s.cpu.pc - 1)
    (by subst ht; rfl) (by subst ht; rfl)
  rw [exec_rts, back, Host.Outcome.next.injEq] at hu
  subst hu ht
  simp [charge, pushWord]

theorem brk_then_rti {s t u : State} (ht : exec .brk s = .next t) (hu : exec .rti t = .next u) :
    u.cpu.pc = s.cpu.pc + 1 ∧ u.cpu.sp = s.cpu.sp ∧ u.cpu.p = s.cpu.p := by
  rw [exec_brk, Host.Outcome.next.injEq] at ht
  have back := returnFromInterrupt_after_takeInterrupt (s := s.setPc (s.cpu.pc + 1)) (t := t) .brk
    (by subst ht; rfl) (by subst ht; rfl)
  rw [exec_rti, back, Host.Outcome.next.injEq] at hu
  subst hu ht
  simp [charge]

theorem pha_then_pla {s t u : State} {v : Byte} (ht : exec .pha s = .next t)
    (hu : exec .pla (t.setA v) = .next u) :
    u.cpu.a = s.cpu.a ∧ u.cpu.sp = s.cpu.sp := by
  rw [exec_pha, Host.Outcome.next.injEq] at ht
  have back := pull_after_push (s := s) (t := t.setA v) (v := s.cpu.a)
    (by subst ht; rfl) (by subst ht; rfl)
  rw [exec_pla, back, Host.Outcome.next.injEq] at hu
  subst hu ht
  exact ⟨rfl, rfl⟩

theorem php_then_plp {s t u : State} {p : Flags} (ht : exec .php s = .next t)
    (hu : exec .plp (t.setP p) = .next u) :
    u.cpu.p = s.cpu.p ∧ u.cpu.sp = s.cpu.sp := by
  rw [exec_php, Host.Outcome.next.injEq] at ht
  have back := pull_after_push (s := s) (t := t.setP p) (v := s.cpu.p.pushed true)
    (by subst ht; rfl) (by subst ht; rfl)
  rw [exec_plp, pullFlags, back, Host.Outcome.next.injEq] at hu
  subst hu ht
  exact ⟨(pushed_bits s.cpu.p true).2.2, rfl⟩

/-- Settles O28: a pull finds what the push before it left, and a flag byte gives its flags back. -/
theorem savedStateComesBack : Obligations.SavedStateComesBack :=
  ⟨fun _ _ _ _ => jsr_then_rts, fun _ _ _ => brk_then_rti, fun _ _ _ _ => pha_then_pla,
    fun _ _ _ _ => php_then_plp, pushed_bits, pulled_xor⟩

end Sys2Proof.Machine
end

section
/-! PROOF. What reset leaves (R34, R122, R123, R124, R131, R475, R545). -/

namespace Sys2Proof.Machine

theorem startSession_ok {l : Launch} {s : State} (h : startSession l = .ok s) :
    ∃ regs, MapperRegs.ofId l.cart.mapperId = some regs ∧ s = State.powerOn l regs := by
  unfold startSession at h
  split at h
  · cases h
  · split at h
    · cases h
    · rename_i regs hr
      cases h
      exact ⟨regs, hr, rfl⟩

/-- PC after reset is the word at the reset vector (R34). -/
theorem read16_resetVector (s : State) :
    (read16 s 0xFFFC#16).value =
      mkWord (readPrg s.cart s.mapper.regs 0xFFFD#16) (readPrg s.cart s.mapper.regs 0xFFFC#16) := rfl

/-- The mapper's registers are those of the reset state of the id's variant (R122, R123, R124). -/
theorem regs_of_ofId {id n : Nat} {regs r : MapperRegs} (h : MapperRegs.ofId id = some regs)
    (hr : MapperRegs.ofId n = some r) (hn : id = n) : regs = r := by
  rw [hn, hr] at h
  cases h
  rfl

/-- Settles O58: reset writes every field, and the launch gives the memories. -/
theorem resetValues : Obligations.ResetValues := by
  intro l s h
  obtain ⟨regs, hr, rfl⟩ := startSession_ok h
  exact ⟨by rw [read16_resetVector]; rfl, rfl, rfl, rfl, rfl, regs_of_ofId hr rfl,
    regs_of_ofId hr rfl, regs_of_ofId hr rfl, regs_of_ofId hr rfl, rfl, rfl, rfl, rfl, rfl, rfl, rfl, rfl, rfl,
    rfl⟩

end Sys2Proof.Machine
end

section
/-! PROOF. Which reads of the bus have an effect, and on what (R65, R103). -/

namespace Sys2Proof.Machine

/-- The addresses of a window, and the cell or register an address selects in it (R103, R105 to R109). -/
def Window.Covers (addr : Word) : Window → Prop
  | .ram cell => addr.toNat < 0x2000 ∧ cell.toNat = addr.toNat % 2048
  | .video reg => (0x2000 ≤ addr.toNat ∧ addr.toNat < 0x4000) ∧ reg.toNat = addr.toNat % 8
  | .channel reg => (0x4000 ≤ addr.toNat ∧ addr.toNat < 0x4014) ∧ reg.toNat = addr.toNat % 32
  | .spriteDma => addr = 0x4014#16
  | .audioStatus => addr = 0x4015#16
  | .pad0 => addr = 0x4016#16
  | .pad1 => addr = 0x4017#16
  | .gap => 0x4018 ≤ addr.toNat ∧ addr.toNat < 0x6000
  | .saveRam cell => (0x6000 ≤ addr.toNat ∧ addr.toNat < 0x8000) ∧ cell.toNat = addr.toNat % 8192
  | .rom => 0x8000 ≤ addr.toNat

theorem windowOf_covers (addr : Word) : (windowOf addr).Covers addr := by
  have selected (n : Nat) : (field addr 0 n : BitVec n).toNat = addr.toNat % 2 ^ n := by simp [field]
  exact
    iteInduction (fun ram => ⟨ram, selected 11⟩) fun ram =>
    iteInduction (fun video => ⟨⟨Nat.le_of_not_lt ram, video⟩, selected 3⟩) fun video =>
    iteInduction (fun channel => ⟨⟨Nat.le_of_not_lt video, channel⟩, selected 5⟩) fun channel =>
    iteInduction (fun dma => BitVec.eq_of_toNat_eq dma) fun dma =>
    iteInduction (fun status => BitVec.eq_of_toNat_eq status) fun status =>
    iteInduction (fun pad0 => BitVec.eq_of_toNat_eq pad0) fun pad0 =>
    iteInduction (fun pad1 => BitVec.eq_of_toNat_eq pad1) fun pad1 =>
    iteInduction (fun gap => ⟨by omega, gap⟩) fun gap =>
    iteInduction (fun save => ⟨⟨Nat.le_of_not_lt gap, save⟩, selected 13⟩) fun save =>
    Nat.le_of_not_lt save

/-- Of the video registers, only the status and the data register have a read effect (R455, R462). -/
theorem readVideoRegister_state {reg : BitVec 3} (s : State) (h2 : reg.toNat ≠ 2) (h7 : reg.toNat ≠ 7) :
    (readVideoRegister s reg).state = s := by
  unfold readVideoRegister
  split
  case h_2 h => exact absurd h h2
  case h_4 h => exact absurd h h7
  all_goals rfl

/-- A read of the save-RAM window has an effect only if the RAM is there and disabled (R109). -/
theorem readSaveRam_state {s : State} (cell : BitVec 13)
    (h : ¬(s.cart.battery = true ∧ s.params.prgRamEnabled = false)) : (readSaveRam s cell).state = s := by
  unfold readSaveRam
  split_ifs with hb he
  · rfl
  · exact absurd ⟨Bool.eq_true_of_not_eq_false hb, he⟩ h
  · rfl

theorem busRead_cpu_of_ne {s : State} {addr : Word} (h : addr ≠ 0x4015#16) :
    (busRead s addr).state.cpu = s.cpu := by
  have covers := windowOf_covers addr
  have hw : windowOf addr ≠ .audioStatus := fun status => by
    rw [status] at covers
    exact h covers
  rw [(busRead_keeps s addr).cpu_eq, (busRead_irq_audio hw).1]

/-- Settles O32: only the listed windows have a read effect, and every read keeps what `busRead_keeps` says. -/
theorem readsChangeOnlyListedDevices : Obligations.ReadsChangeOnlyListedDevices := by
  intro s addr video listed
  have k := busRead_keeps s addr
  refine ⟨fun unlisted => ?_, busRead_cpu_of_ne, k.cpu_eq, k.cart, k.params, k.memoryKept⟩
  have covers := windowOf_covers addr
  unfold busRead
  generalize windowOf addr = w at covers ⊢
  cases w with
  | video reg =>
    obtain ⟨range, hr⟩ := covers
    refine readVideoRegister_state s (fun h2 => unlisted ?_) (fun h7 => unlisted ?_)
    · exact .inl ⟨range, .inl (hr ▸ h2)⟩
    · exact .inl ⟨range, .inr (hr ▸ h7)⟩
  | audioStatus => exact absurd (.inr (.inl covers)) unlisted
  | pad0 => exact absurd (.inr (.inr (.inl covers))) unlisted
  | pad1 => exact absurd (.inr (.inr (.inr (.inl covers)))) unlisted
  | saveRam cell =>
    obtain ⟨⟨lo, hi⟩, -⟩ := covers
    refine readSaveRam_state cell fun off => unlisted ?_
    exact .inr (.inr (.inr (.inr ⟨lo, hi, off⟩)))
  | ram | channel | spriteDma | gap | rom => rfl

end Sys2Proof.Machine
end

section
/-! PROOF. The bytes of plain memory an instruction leaves alone (R73, R104). -/

namespace Sys2Proof.Machine

/-- The byte that `t` holds at an address of plain memory is the one `s` holds; so are the cartridge and the
parameters, which decide what is plain memory. -/
structure KeepsByte (s : State) (addr : Word) (t : State) : Prop where
  cart : t.cart = s.cart
  params : t.params = s.params
  byte : ByteKept s t addr

theorem KeepsByte.refl (s : State) (addr : Word) : KeepsByte s addr s := ⟨rfl, rfl, fun _ => rfl⟩

section
variable {s t u : State} {addr ea : Word} (h : KeepsByte s addr t)
include h

theorem KeepsByte.read (k : ReadKeeps t u) : KeepsByte s addr u :=
  ⟨k.cart.trans h.cart, k.params.trans h.params, h.byte.trans (k.byteKept addr) ⟨h.cart, h.params⟩⟩

theorem KeepsByte.write (ht : storeTouches ea addr = false) (v : Byte) :
    KeepsByte s addr (busWrite t ea v) :=
  have k := busWrite_keeps t ea v
  ⟨k.cart.trans h.cart, k.params.trans h.params,
    h.byte.trans ((busWrite_frame t ea v).processor addr ht) ⟨h.cart, h.params⟩⟩

/-- Writes to the registers of the processor. -/
theorem KeepsByte.registers (k : SameOutside t u) : KeepsByte s addr u :=
  ⟨k.cart.trans h.cart, k.params.trans h.params,
    fun hp => (k.busRead_value addr).trans (h.byte hp)⟩

theorem KeepsByte.setPc (pc : Word) : KeepsByte s addr (t.setPc pc) := h.registers (.ofCpu _ _)

theorem KeepsByte.setP (p : Flags) : KeepsByte s addr (t.setP p) := h.registers (.ofCpu _ _)

theorem KeepsByte.charge (n : Nat) : KeepsByte s addr (charge t n) := h.registers (.ofCpu _ _)

/-- A push to the `n`-th stack slot of `s` (R23). -/
theorem KeepsByte.push {n : Byte} (hsp : t.cpu.sp = s.cpu.sp - n)
    (ht : storeTouches (stackSlot s n) addr = false) (v : Byte) : KeepsByte s addr (push t v) := by
  rw [stackSlot, ← hsp] at ht
  exact (h.write ht v).registers (.ofCpu _ _)

/-- A word pushed to two neighbouring stack slots of `s` (R317, R404). -/
theorem KeepsByte.pushWord {n : Byte} (hsp : t.cpu.sp = s.cpu.sp - n)
    (hi : storeTouches (stackSlot s n) addr = false)
    (lo : storeTouches (stackSlot s (n + 1)) addr = false) (w : Word) :
    KeepsByte s addr (pushWord t w) :=
  (h.push hsp hi _).push (by simp only [push_cpu, hsp]; bv_omega) lo _

/-- The interrupt sequence, which pushes to three neighbouring stack slots of `s` (R404). -/
theorem KeepsByte.takeInterrupt (hsp : t.cpu.sp = s.cpu.sp - 0)
    (h0 : storeTouches (stackSlot s 0) addr = false) (h1 : storeTouches (stackSlot s 1) addr = false)
    (h2 : storeTouches (stackSlot s 2) addr = false) (k : InterruptKind) :
    KeepsByte s addr (takeInterrupt k t) := by
  have word := h.pushWord hsp h0 h1 t.cpu.pc
  have flags := word.push (n := 2) (by simp only [Machine.pushWord, push_cpu, hsp]; bv_omega) h2
    (t.cpu.p.pushed k.breakBit)
  rw [takeInterrupt_eq]
  exact (flags.setP _).setPc _

end

section
variable {s t : State} {addr : Word}

/-- A read-modify-write writes once, to its operand's effective address (R174). -/
theorem KeepsByte.modifyMem {m : RmwAddr} (h : storeTouches (resolve m.toAddr s).ea addr = false)
    (op : Flags → Byte → AluResult) : KeepsByte s addr (modifyMem m op s) := by
  have resolved := (refl s addr).read (resolve_keeps m.toAddr s)
  have operand := resolved.read (busRead_keeps _ (resolve m.toAddr s).ea)
  exact (operand.write h _).setP _

theorem KeepsByte.modifyShift {d : ShiftDst}
    (h : ∀ m, d = .mem m → storeTouches (resolve m.toAddr s).ea addr = false)
    (op : Flags → Byte → AluResult) : KeepsByte s addr (modifyShift d op s) := by
  cases d with
  | acc => exact (refl s addr).registers (.ofCpu _ _)
  | mem m => exact modifyMem (h m rfl) op

theorem KeepsByte.branchIf {taken : Bool} {off : Byte} (ht : branchIf taken off s = .next t) :
    KeepsByte s addr t := by
  cases ht
  cases taken <;> exact (refl s addr).registers (.ofCpu _ _)

/-- Every instruction keeps the byte that none of its stores touches, class by class (R73). -/
theorem exec_keepsByte {i : Instr} (h : ∀ ea ∈ i.storedAt s, storeTouches ea addr = false)
    (ht : exec i s = .next t) : KeepsByte s addr t := by
  have keep := KeepsByte.refl s addr
  cases i with
  | lda src | ldx src | ldy src | adc src | sbc src | cmp src | cpx src | cpy src | and src | ora src
  | eor src =>
    cases ht
    exact (keep.read (readSrc_keeps src s)).registers (.ofCpu _ _)
  | bit src =>
    cases ht
    exact (keep.read (readMem_keeps src s)).registers (.ofCpu _ _)
  | jmp target =>
    cases ht
    exact (keep.read (jumpTarget_keeps target s)).registers (.ofCpu _ _)
  | sta dst | stx dst | sty dst =>
    cases ht
    exact ((keep.read (resolve_keeps dst s)).write (h _ (.head _)) _).charge _
  | inc dst | dec dst =>
    cases ht
    exact (KeepsByte.modifyMem (h _ (.head _)) _).charge _
  | asl dst | lsr dst | rol dst | ror dst =>
    cases ht
    refine (KeepsByte.modifyShift (fun m hm => ?_) _).charge _
    subst hm
    exact h _ (.head _)
  | bcc off | bcs off | beq off | bne off | bmi off | bpl off | bvc off | bvs off =>
    exact KeepsByte.branchIf ht
  | pha =>
    have first := keep.push (BitVec.sub_zero _).symm (h _ (.head _)) s.cpu.a
    exact of_exec_eq (exec_pha s) ht (first.charge _)
  | php =>
    have first := keep.push (BitVec.sub_zero _).symm (h _ (.head _)) (s.cpu.p.pushed true)
    exact of_exec_eq (exec_php s) ht (first.charge _)
  | jsr target =>
    have word := keep.pushWord (BitVec.sub_zero _).symm (h _ (.head _)) (h _ (.tail _ (.head _)))
      (s.cpu.pc - 1)
    exact of_exec_eq (exec_jsr target s) ht ((word.setPc target).charge _)
  | brk =>
    have pc := keep.setPc (s.cpu.pc + 1)
    have taken := pc.takeInterrupt (BitVec.sub_zero _).symm (h _ (.head _)) (h _ (.tail _ (.head _)))
      (h _ (.tail _ (.tail _ (.head _)))) .brk
    exact of_exec_eq (exec_brk s) ht (taken.charge _)
  | pla =>
    refine of_exec_eq (exec_pla s) ht ?_
    rw [pull_eq]
    exact keep.registers (.ofCpu _ _)
  | plp =>
    refine of_exec_eq (exec_plp s) ht ?_
    rw [pullFlags_eq]
    exact keep.registers (.ofCpu _ _)
  | rts =>
    refine of_exec_eq (exec_rts s) ht ?_
    rw [pullWord_eq]
    exact keep.registers (.ofCpu _ _)
  | rti =>
    refine of_exec_eq (exec_rti s) ht ?_
    rw [returnFromInterrupt_eq]
    exact keep.registers (.ofCpu _ _)
  | tax | tay | txa | tya | tsx | txs | inx | iny | dex | dey | clc | sec | cli | sei | clv | cld | sed
  | nop | unrecognized =>
    cases ht
    exact keep.registers (.ofCpu _ _)

end

/-- Settles O27: an instruction is made of reads, register writes and writes to its listed addresses, and each
of them keeps the byte. -/
theorem everyInstructionMemoryFrame : Obligations.EveryInstructionMemoryFrame :=
  fun _ _ _ _ ht h => (exec_keepsByte h ht).byte

end Sys2Proof.Machine
end

section
/-! PROOF. The fields and bits of a vector as arithmetic (R9), and what no engine's step but the processor's
changes: the memories and the mapper. -/

namespace Sys2Proof.Machine

theorem toNat_field {w : Nat} (v : BitVec w) (lo n : Nat) :
    (field v lo n).toNat = v.toNat / 2 ^ lo % 2 ^ n := by
  simp [field, Nat.shiftRight_eq_div_pow]

theorem bitOf_eq {w : Nat} (v : BitVec w) (i : Nat) :
    bitOf v i = decide (v.toNat / 2 ^ i % 2 = 1) := Nat.testBit_eq_decide_div_mod_eq

theorem bitNat_bitOf {w : Nat} (v : BitVec w) (i : Nat) :
    bitNat (bitOf v i) = v.toNat / 2 ^ i % 2 := by
  rw [bitOf_eq, bitNat]
  split <;> simp_all

theorem MemAll.trans {s t u : State} (h : MemAll s t) (k : MemAll t u) : MemAll s u :=
  ⟨k.ram.trans h.ram, k.vram.trans h.vram, k.palette.trans h.palette, k.prgRam.trans h.prgRam,
    k.mirroring.trans h.mirroring, k.mapper.trans h.mapper, k.cart.trans h.cart, k.params.trans h.params⟩

theorem ReadKeeps.memAll {s t : State} (h : ReadKeeps s t) : MemAll s t :=
  ⟨h.ram, h.vram, h.palette, h.prgRam, h.mirroring, h.mapper, h.cart, h.params⟩

theorem DotKeeps.memAll {s t : State} (h : DotKeeps s t) : MemAll s t :=
  ⟨by rw [h.bus], by rw [h.bus], by rw [h.bus], by rw [h.bus], by rw [h.bus], h.mapper, h.cart, h.params⟩

/-- A dot reads sprite memory and never writes it (R463 to R471). -/
theorem videoStep_oam (s : State) : (videoStep s).video.oam = s.video.oam := by
  have work : (dotWork s).video.oam = s.video.oam := by
    unfold dotWork
    split
    · unfold preRenderDot
      dsimp only
      split_ifs <;> rfl
    · unfold renderDot visibleDot
      dsimp only
      split_ifs <;> rfl
    · rfl
    · unfold verticalBlankDot
      dsimp only
      split_ifs <;> rfl
  have line (d : Video) : (lineEndWork d).oam = d.oam := by
    unfold lineEndWork
    split
    case h_4 => split <;> rfl
    all_goals rfl
  unfold videoStep advanceDot
  split
  · exact (line _).trans work
  · exact work

/-- A sample byte fetched (R525) changes the memories and the mapper no more than its bus read does. -/
theorem fetchSample_memAll (s : State) :
    MemAll s (fetchSample s) ∧ (fetchSample s).video.oam = s.video.oam := by
  have k := busRead_keeps (skipCycles s s.params.dmcStall) s.audio.dmc.curAddr
  have h : MemAll s (busRead (skipCycles s s.params.dmcStall) s.audio.dmc.curAddr).state := { k.memAll with }
  unfold fetchSample endOfSample
  dsimp only
  split_ifs <;> exact ⟨{ h with }, k.oam⟩

/-- A step of the Audio Engine (R501) writes no memory and no register of the mapper. -/
theorem audioStep_memAll {s t : State} (h : audioStep s = .next t) :
    MemAll s t ∧ t.video.oam = s.video.oam := by
  obtain ⟨u, hu, rfl⟩ := audioStep_next h
  have reader : MemAll s u ∧ u.video.oam = s.video.oam := by
    obtain rfl | rfl := dmcReader_next hu
    · exact ⟨{ MemAll.refl s with }, rfl⟩
    · have k := fetchSample_memAll (s.setAudio (clockTimers s.audio s.cart.region))
      exact ⟨{ k.1 with }, k.2⟩
  have sequencer (e : FrameEvent) : MemAll u (sequencerWork e u) ∧
      (sequencerWork e u).video.oam = u.video.oam := by
    cases e with
    | last =>
      simp only [sequencerWork, raiseFrameIrq]
      split <;> exact ⟨{ MemAll.refl u with }, rfl⟩
    | _ => exact ⟨{ MemAll.refl u with }, rfl⟩
  have finish := sequencer (frameEvent u.cart.region u.audio.frame.mode5 u.audio.frame.cycle)
  exact ⟨reader.1.trans { finish.1 with }, finish.2.trans reader.2⟩

end Sys2Proof.Machine
end

section
/-! PROOF. Every memory keeps its size and its canonical form (R105, R109, R113, R114, R115, R450). -/

namespace Sys2Proof.Machine

/-- The memories of the machine in their canonical forms, one field each: what `State.memoriesWf` tests. -/
structure State.MemoriesCanonical (s : State) : Prop where
  ram : Memory.wf 2048 s.bus.ram = true
  vram : Memory.wf 2048 s.bus.vram = true
  palette : Memory.wf 32 s.bus.palette = true
  prgRam : Memory.wf 8192 s.bus.prgRam = true
  chrRam : Memory.wf 8192 s.mapper.chrRam = true
  oam : Memory.wf 256 s.video.oam = true

theorem State.memoriesWf_iff {s : State} : s.memoriesWf = true ↔ s.MemoriesCanonical := by
  simp only [State.memoriesWf, Bool.and_eq_true]
  exact ⟨fun ⟨⟨⟨⟨⟨ram, vram⟩, palette⟩, prgRam⟩, chrRam⟩, oam⟩ =>
      ⟨ram, vram, palette, prgRam, chrRam, oam⟩,
    fun h => ⟨⟨⟨⟨⟨h.ram, h.vram⟩, h.palette⟩, h.prgRam⟩, h.chrRam⟩, h.oam⟩⟩

theorem State.MemoriesCanonical.of_same {s t : State} (h : s.MemoriesCanonical) (k : MemAll s t)
    (oam : t.video.oam = s.video.oam) : t.MemoriesCanonical where
  ram := by rw [k.ram]; exact h.ram
  vram := by rw [k.vram]; exact h.vram
  palette := by rw [k.palette]; exact h.palette
  prgRam := by rw [k.prgRam]; exact h.prgRam
  chrRam := by rw [k.mapper]; exact h.chrRam
  oam := by rw [oam]; exact h.oam

theorem State.MemoriesCanonical.busRead {s : State} (h : s.MemoriesCanonical) (addr : Word) :
    (busRead s addr).state.MemoriesCanonical :=
  h.of_same (busRead_keeps s addr).memAll (busRead_keeps s addr).oam

/-! ### The cells of the video address space lie in their memories -/

theorem nametableIndex_lt (m : Mirroring) (a : BitVec 14) : nametableIndex m a < 2048 := by
  have off := (field a 0 10 : BitVec 10).isLt
  have bit (b : Bool) : bitNat b ≤ 1 := by cases b <;> decide
  unfold nametableIndex
  cases m with
  | horizontal => have := bit (bitOf a 11); dsimp only; omega
  | vertical => have := bit (bitOf a 10); dsimp only; omega
  | singleLow => dsimp only; omega
  | singleHigh => dsimp only; omega

theorem paletteIndex_lt (a : BitVec 14) : paletteIndex a < 32 := by
  have := (field a 0 5 : BitVec 5).isLt
  simp only [paletteIndex]
  split <;> omega

/-- Without graphics ROM the two 4 KB banks of variant (b) are those of character RAM (R121). -/
theorem serialChrBank_lt_two {c : Cartridge} (h : c.chrBanks = 0) (r : SerialRegs) (hi : Bool) :
    serialChrBank c r hi < 2 := by
  unfold serialChrBank
  simp only [h, if_true]
  split_ifs <;> exact Nat.mod_lt _ (by decide)

theorem chrIndex_lt_chrRam {c : Cartridge} (h : c.chrBanks = 0) (m : MapperRegs) (a : BitVec 13) :
    chrIndex c m a < 8192 := by
  have ha := a.isLt
  cases m with
  | fixed => exact ha
  | prgSwitch bank => exact ha
  | chrSwitch bank => simpa [chrIndex, h] using ha
  | serial r =>
    have bank := serialChrBank_lt_two h r (bitOf a 12)
    have off := (field a 0 12 : BitVec 12).isLt
    simp only [chrIndex]
    omega

theorem State.MemoriesCanonical.videoWrite {s : State} (h : s.MemoriesCanonical) (a : BitVec 14)
    (v : Byte) : (videoWrite s a v).MemoriesCanonical := by
  unfold Machine.videoWrite
  split
  · refine { h with chrRam := ?_ }
    simp only [State.setMapper_mapper, writeChr]
    split
    case isTrue rom => exact Memory.wf_write v h.chrRam (chrIndex_lt_chrRam rom _ _)
    case isFalse => exact h.chrRam
  · split
    · exact { h with vram := Memory.wf_write v h.vram (nametableIndex_lt _ a) }
    · exact { h with palette := Memory.wf_write v h.palette (paletteIndex_lt a) }

/-! ### The writes of the bus -/

theorem State.MemoriesCanonical.writeVideoRegister {s : State} (h : s.MemoriesCanonical) (reg : BitVec 3)
    (v : Byte) : (writeVideoRegister s reg v).MemoriesCanonical := by
  unfold Machine.writeVideoRegister
  split
  case h_4 => exact { h with oam := Memory.wf_write v h.oam s.video.oamAddr.isLt }
  case h_5 => unfold writeScroll; split <;> exact { h with }
  case h_6 => unfold writeVramAddress; split <;> exact { h with }
  case h_7 => exact { h.videoWrite (field s.video.v 0 14) v with }
  all_goals exact { h with }

theorem State.MemoriesCanonical.writeChannel {s : State} (h : s.MemoriesCanonical) (reg : BitVec 5)
    (v : Byte) : (writeChannel s reg v).MemoriesCanonical := by
  unfold Machine.writeChannel
  dsimp only
  split
  case h_5 => split <;> exact { h with }
  all_goals exact { h with }

theorem State.MemoriesCanonical.spriteCopy (page : Byte) (n : Nat) :
    ∀ {s : State}, s.MemoriesCanonical → (spriteCopy page n s).MemoriesCanonical := by
  induction n with
  | zero => exact id
  | succ n ih =>
    intro s h
    have hr := h.busRead (mkWord page (BitVec.ofNat 8 (255 - n)))
    exact ih { hr with oam := Memory.wf_write _ hr.oam (BitVec.isLt _) }

theorem State.MemoriesCanonical.setPending {s : State} (h : s.MemoriesCanonical) (n : Nat) :
    (s.setPending n).MemoriesCanonical := { h with }

theorem State.MemoriesCanonical.writeSaveRam {s : State} (h : s.MemoriesCanonical) (cell : BitVec 13)
    (v : Byte) : (writeSaveRam s cell v).MemoriesCanonical := by
  unfold Machine.writeSaveRam
  split
  · exact { h with prgRam := Memory.wf_write v h.prgRam cell.isLt }
  · exact h

theorem State.MemoriesCanonical.busWrite {s : State} (h : s.MemoriesCanonical) (addr : Word) (v : Byte) :
    (busWrite s addr v).MemoriesCanonical := by
  unfold Machine.busWrite
  cases windowOf addr with
  | ram cell => exact { h with ram := Memory.wf_write v h.ram cell.isLt }
  | video reg => exact h.writeVideoRegister reg v
  | channel reg => exact h.writeChannel reg v
  | spriteDma => exact (State.MemoriesCanonical.spriteCopy v 256 h).setPending _
  | audioStatus => exact { h with }
  | pad0 => unfold writeStrobe; dsimp only; split <;> exact { h with }
  | pad1 => unfold writeFrameControl; dsimp only; split <;> exact { h with }
  | gap => exact h
  | saveRam cell => exact h.writeSaveRam cell v
  | rom => unfold writeMapper; dsimp only; split <;> exact { h with }

theorem keptByTick_memoriesCanonical : KeptByTick State.MemoriesCanonical where
  read addr h := h.busRead addr
  write addr v h := h.busWrite addr v
  setCpu _ h := { h with }
  videoStep h := h.of_same (videoStep_keeps _).memAll (videoStep_oam _)
  audioStep h ht := h.of_same (audioStep_memAll ht).1 (audioStep_memAll ht).2
  reload _ h := { h with }
  countDown _ h := { h with }
  clearOut h := { h with }

/-- Settles O53: every write of the bus lands inside the memory its window names. -/
theorem everyStepKeepsMemoriesCanonical : Obligations.EveryStepKeepsMemoriesCanonical :=
  fun _ _ h ht =>
    State.memoriesWf_iff.2 (keptByTick_memoriesCanonical.step (State.memoriesWf_iff.1 h) ht)

end Sys2Proof.Machine
end

section
/-! PROOF. The mapper's bank numbers stay inside the cartridge (R115): only a store to the ROM window writes
the mapper's registers, and it takes a bank number modulo the cartridge's. -/

namespace Sys2Proof.Machine

theorem State.mapperOk_iff {s : State} :
    s.mapperOk = true ↔
      s.cart.valid = true ∧ s.mapper.regs.id = s.cart.mapperId ∧ s.mapper.regs.inBounds s.cart = true := by
  simp [State.mapperOk, and_assoc]

/-- A valid cartridge has a program bank (R102). -/
theorem Cartridge.one_le_prgBanks {c : Cartridge} (h : c.valid = true) : 1 ≤ c.prgBanks := by
  simp only [Cartridge.valid, Bool.and_eq_true, decide_eq_true_eq, and_assoc] at h
  exact h.1

theorem videoWrite_regs (s : State) (a : BitVec 14) (v : Byte) :
    (videoWrite s a v).mapper.regs = s.mapper.regs := by
  unfold videoWrite writeChr
  split_ifs <;> rfl

theorem busWrite_regs (s : State) {addr : Word} (v : Byte) (h : windowOf addr ≠ .rom) :
    (busWrite s addr v).mapper.regs = s.mapper.regs := by
  unfold busWrite
  split
  case h_2 reg _ =>
    by_cases data : reg = 7
    · subst data
      exact videoWrite_regs s _ v
    · rw [(writeVideoRegister_mem s reg v data).mapper]
  case h_3 =>
    unfold writeChannel
    dsimp only
    split
    case h_5 => split <;> rfl
    all_goals rfl
  case h_4 => exact congrArg MapperState.regs (spriteCopy_mem v 256 s).mapper
  case h_6 => unfold writeStrobe; dsimp only; split <;> rfl
  case h_7 => unfold writeFrameControl; dsimp only; split <;> rfl
  case h_9 => unfold writeSaveRam; split <;> rfl
  case h_10 hw => exact absurd hw h
  all_goals rfl

theorem writeMapper_regs (s : State) (addr : Word) (v : Byte) :
    (writeMapper s addr v).mapper.regs = (writePrg s.cart s.mapper.regs addr v).1 := by
  unfold writeMapper
  dsimp only
  split <;> rfl

/-- A commit leaves the shift register empty (R118). -/
theorem serialCommit_count (r : SerialRegs) (addr : Word) (value : BitVec 5) :
    (serialCommit r addr value).1.count = 0 := by
  unfold serialCommit
  dsimp only
  split <;> rfl

theorem serialWrite_count_lt {r : SerialRegs} (h : r.count < 5) (addr : Word) (v : Byte) :
    (serialWrite r addr v).1.count < 5 := by
  unfold serialWrite
  dsimp only
  split_ifs with clear full
  · exact Nat.zero_lt_succ 4
  · rw [serialCommit_count]
    decide
  · dsimp only
    omega

theorem writePrg_id (c : Cartridge) (m : MapperRegs) (addr : Word) (v : Byte) :
    (writePrg c m addr v).1.id = m.id := by
  cases m <;> rfl

theorem writePrg_inBounds {c : Cartridge} {m : MapperRegs} (hc : c.valid = true) (addr : Word) (v : Byte)
    (h : m.inBounds c = true) : (writePrg c m addr v).1.inBounds c = true := by
  cases m with
  | fixed => rfl
  | serial r => exact decide_eq_true (serialWrite_count_lt (of_decide_eq_true h) addr v)
  | prgSwitch bank => exact decide_eq_true (Nat.mod_lt _ (Cartridge.one_le_prgBanks hc))
  | chrSwitch bank =>
    refine decide_eq_true ?_
    split
    · exact .inl rfl
    · exact .inr (Nat.mod_lt _ (by omega))

theorem MemAll.mapperOk {s t : State} (k : MemAll s t) (h : s.mapperOk = true) : t.mapperOk = true := by
  simpa only [State.mapperOk, k.mapper, k.cart] using h

theorem busWrite_mapperOk {s : State} (addr : Word) (v : Byte) (h : s.mapperOk = true) :
    (busWrite s addr v).mapperOk = true := by
  obtain ⟨hc, hid, hb⟩ := State.mapperOk_iff.1 h
  rw [State.mapperOk_iff, (busWrite_keeps s addr v).cart]
  by_cases hw : windowOf addr = .rom
  · have regs : (busWrite s addr v).mapper.regs = (writePrg s.cart s.mapper.regs addr v).1 := by
      simp only [busWrite, hw, writeMapper_regs]
    rw [regs, writePrg_id]
    exact ⟨hc, hid, writePrg_inBounds hc addr v hb⟩
  · rw [busWrite_regs s v hw]
    exact ⟨hc, hid, hb⟩

theorem keptByTick_mapperOk : KeptByTick fun s => s.mapperOk = true where
  read addr h := (busRead_keeps _ addr).memAll.mapperOk h
  write addr v h := busWrite_mapperOk addr v h
  setCpu _ h := h
  videoStep h := (videoStep_keeps _).memAll.mapperOk h
  audioStep h ht := (audioStep_memAll ht).1.mapperOk h
  reload _ h := h
  countDown _ h := h
  clearOut h := h

/-- Settles O54: the mapper's registers are written by stores to the ROM window only, and within bounds. -/
theorem everyStepKeepsBanksInBounds : Obligations.EveryStepKeepsBanksInBounds :=
  fun _ _ h ht => keptByTick_mapperOk.step h ht

end Sys2Proof.Machine
end

section
/-! PROOF. The window of an address, from its range (R103, R106 to R109). -/

namespace Sys2Proof.Machine

theorem windowOf_ram {addr : Word} (h : addr.toNat < 0x2000) :
    windowOf addr = .ram (field addr 0 11) := if_pos h

theorem windowOf_video {addr : Word} (lo : 0x2000 ≤ addr.toNat) (hi : addr.toNat < 0x4000) :
    windowOf addr = .video (field addr 0 3) :=
  (if_neg (by omega)).trans (if_pos hi)

theorem windowOf_channel {addr : Word} (lo : 0x4000 ≤ addr.toNat) (hi : addr.toNat < 0x4014) :
    windowOf addr = .channel (field addr 0 5) :=
  (if_neg (by omega)).trans ((if_neg (by omega)).trans (if_pos hi))

theorem windowOf_gap {addr : Word} (lo : 0x4018 ≤ addr.toNat) (hi : addr.toNat < 0x6000) :
    windowOf addr = .gap := by
  unfold windowOf
  dsimp only
  iterate 7 rw [if_neg (by omega)]
  exact if_pos hi

theorem windowOf_saveRam {addr : Word} (lo : 0x6000 ≤ addr.toNat) (hi : addr.toNat < 0x8000) :
    windowOf addr = .saveRam (field addr 0 13) := by
  unfold windowOf
  dsimp only
  iterate 8 rw [if_neg (by omega)]
  exact if_pos hi

theorem windowOf_rom {addr : Word} (h : 0x8000 ≤ addr.toNat) : windowOf addr = .rom := by
  unfold windowOf
  dsimp only
  iterate 9 rw [if_neg (by omega)]

theorem toNat_field_zero {w : Nat} (v : BitVec w) (n : Nat) :
    (field v 0 n).toNat = v.toNat % 2 ^ n := by
  rw [toNat_field, Nat.pow_zero, Nat.div_one]

end Sys2Proof.Machine
end

section
/-! PROOF. Work RAM and save RAM, and the addresses that answer with the placeholder byte (R105 to R109). -/

namespace Sys2Proof.Machine

/-- Settles O30: the four mirrors of an address are one cell (R105). -/
theorem workRamMirrors : Obligations.WorkRamMirrors := by
  intro s addr other v ha ho
  simp only [busRead, busWrite, windowOf_ram ha, windowOf_ram ho, State.setBus_bus, Memory.read_write,
    toNat_field_zero, Nat.reducePow, eq_comm, and_true]

section
variable {addr : Word} (lo : 0x6000 ≤ addr.toNat) (hi : addr.toNat < 0x8000)
include lo hi

theorem busRead_saveRam (s : State) : busRead s addr = readSaveRam s (field addr 0 13) := by
  simp only [busRead, windowOf_saveRam lo hi]

theorem busWrite_saveRam (s : State) (v : Byte) :
    busWrite s addr v = writeSaveRam s (field addr 0 13) v := by
  simp only [busWrite, windowOf_saveRam lo hi]

end

/-- Two addresses of the save-RAM window select the same cell only if they are equal (R109). -/
theorem saveRam_cell_inj {addr other : Word} (ha : 0x6000 ≤ addr.toNat ∧ addr.toNat < 0x8000)
    (ho : 0x6000 ≤ other.toNat ∧ other.toNat < 0x8000) :
    (field other 0 13 : BitVec 13).toNat = (field addr 0 13 : BitVec 13).toNat ↔ addr = other := by
  rw [toNat_field_zero, toNat_field_zero, ← BitVec.toNat_inj]
  omega

/-- A store to the save-RAM window that does not land changes nothing (R109). -/
theorem writeSaveRam_ignored {s : State} (cell : BitVec 13) (v : Byte)
    (h : s.cart.battery = false ∨ s.params.prgRamEnabled = false ∨ s.params.prgRamWriteProtected = true) :
    writeSaveRam s cell v = s :=
  if_neg (by obtain h | h | h := h <;> simp [h])

theorem writeSaveRam_lands {s : State} (cell : BitVec 13) (v : Byte) (hb : s.cart.battery = true)
    (on : s.params.prgRamEnabled = true) (unlocked : s.params.prgRamWriteProtected = false) :
    writeSaveRam s cell v = s.setBus { s.bus with prgRam := Memory.write s.bus.prgRam cell.toNat v } :=
  if_pos (by simp [hb, on, unlocked])

theorem readSaveRam_enabled {s : State} (cell : BitVec 13) (hb : s.cart.battery = true)
    (on : s.params.prgRamEnabled = true) :
    readSaveRam s cell = { value := Memory.read s.bus.prgRam cell.toNat, state := s } := by
  simp [readSaveRam, hb, on]

theorem readSaveRam_disabled {s : State} (cell : BitVec 13) (hb : s.cart.battery = true)
    (off : s.params.prgRamEnabled = false) :
    readSaveRam s cell =
      { value := Config.openBusByte s.draws, state := s.setDraws (s.draws + 1) } := by
  simp [readSaveRam, hb, off]

/-- The video registers that cannot be read are the registers 1, 3, 5 and 6 (R106). -/
theorem readVideoRegister_writeOnly (s : State) {reg : BitVec 3}
    (h : reg.toNat = 1 ∨ reg.toNat = 3 ∨ reg.toNat = 5 ∨ reg.toNat = 6) :
    readVideoRegister s reg = { value := Config.unmappedReadByte, state := s } := by
  unfold readVideoRegister
  obtain h | h | h | h := h <;> rw [h] <;> rfl

/-- A read of a write-only port of the Audio Engine or of the sprite DMA trigger (R107, R108). -/
theorem busRead_writeOnlyPort (s : State) {addr : Word} (lo : 0x4000 ≤ addr.toNat)
    (hi : addr.toNat ≤ 0x4014) : busRead s addr = { value := Config.unmappedReadByte, state := s } := by
  obtain below | last : addr.toNat < 0x4014 ∨ addr.toNat = 0x4014 := by omega
  · simp only [busRead, windowOf_channel lo below]
  · simp only [busRead, (window_dma addr).2 (BitVec.eq_of_toNat_eq last)]

/-- Settles O31: each range is one window, and the parameters decide what save RAM does (R108, R109). -/
theorem saveRamAndUnmappedAddresses : Obligations.SaveRamAndUnmappedAddresses := by
  refine ⟨fun s addr other v ha ho => ?_, fun s addr v => ⟨fun gap => ?_, fun port => ?_, fun video => ?_⟩⟩
  · simp only [busRead_saveRam ho.1 ho.2, busWrite_saveRam ha.1 ha.2]
    refine ⟨fun nb => ⟨if_pos nb, writeSaveRam_ignored _ v (.inl nb)⟩,
      fun hb off => ⟨readSaveRam_disabled _ hb off, writeSaveRam_ignored _ v (.inr (.inl off))⟩,
      fun _ _ locked => writeSaveRam_ignored _ v (.inr (.inr locked)),
      fun hb on => ⟨by rw [readSaveRam_enabled _ hb on], fun unlocked => ?_⟩⟩
    have written (b : BusState) := readSaveRam_enabled (s := s.setBus b) (field other 0 13) hb on
    rw [writeSaveRam_lands _ v hb on unlocked, written, readSaveRam_enabled _ hb on]
    simp only [State.setBus_bus, Memory.read_write, saveRam_cell_inj ha ho]
  · simp only [busRead, busWrite, windowOf_gap gap.1 gap.2, and_self]
  · exact busRead_writeOnlyPort s port.1 port.2
  · have reg : (field addr 0 3 : BitVec 3).toNat = addr.toNat % 8 := toNat_field_zero addr 3
    simp only [busRead, busWrite, windowOf_video video.1 video.2]
    refine ⟨fun unreadable => readVideoRegister_writeOnly s (reg ▸ unreadable), fun status => ?_⟩
    unfold writeVideoRegister
    rw [reg, status]
    rfl

end Sys2Proof.Machine
end

section
/-! PROOF. What a write of the bus changes (R104), and the sprite DMA (R127). -/

namespace Sys2Proof.Machine

/-- Settles O33: the processor, the rest of the machine and the memories, each by its own law of a write. -/
theorem writesChangeOnlyTheirTarget : Obligations.WritesChangeOnlyTheirTarget := by
  intro s addr v
  have k := busWrite_keeps s addr v
  exact ⟨busWrite_cpu s addr v, k.cart, k.params, k.sched, k.out, busWrite_frame s addr v⟩

/-- The copy reads over the bus, and no read moves the OAM address (R65, R127). -/
theorem spriteCopy_oamAddr (page : Byte) (n : Nat) :
    ∀ s, (spriteCopy page n s).video.oamAddr = s.video.oamAddr := by
  induction n with
  | zero => exact fun _ => rfl
  | succ n ih => exact fun s => (ih _).trans (busRead_keeps s _).oamAddr

/-- A byte of the copy from plain memory: the read has no effect, the byte goes to sprite memory (R127). -/
theorem spriteCopy_succ {page : Byte} {n : Nat} {s : State} {j : Byte} (hj : BitVec.ofNat 8 (255 - n) = j)
    (plain : plainMemory s (mkWord page j) = true) :
    spriteCopy page (n + 1) s =
      spriteCopy page n
        (s.setVideo
          { s.video with
            oam := Memory.write s.video.oam (s.video.oamAddr + j).toNat (busRead s (mkWord page j)).value }) := by
  subst hj
  rw [spriteCopy, busRead_state_of_plainMemory plain]

/-- The last `n` bytes of a page of plain memory, copied: they lie in sprite memory at their distances from the
OAM address, and the bytes before them are as they were (R127). -/
theorem read_spriteCopy {page : Byte} (n : Nat) (hn : n ≤ 256) :
    ∀ s : State, (∀ i : Byte, plainMemory s (mkWord page i) = true) → ∀ i : Byte,
      Memory.read (spriteCopy page n s).video.oam (s.video.oamAddr + i).toNat =
        if 256 - n ≤ i.toNat then (busRead s (mkWord page i)).value
        else Memory.read s.video.oam (s.video.oamAddr + i).toNat := by
  induction n with
  | zero =>
    intro s _ i
    exact (if_neg (Nat.not_le_of_lt i.isLt)).symm
  | succ n ih =>
    intro s plain i
    obtain ⟨j, hj⟩ : ∃ j, BitVec.ofNat 8 (255 - n) = j := ⟨_, rfl⟩
    have place : (s.video.oamAddr + i).toNat = (s.video.oamAddr + j).toNat ↔ i.toNat = 255 - n := by
      rw [BitVec.toNat_inj, BitVec.add_right_inj, ← BitVec.toNat_inj, ← hj, BitVec.toNat_ofNat]
      omega
    rw [spriteCopy_succ hj (plain j)]
    generalize ht : s.setVideo _ = t
    have same : MemSame s t := by rw [← ht]; exact ⟨rfl, rfl, rfl, rfl, rfl⟩
    have oamAddr : t.video.oamAddr = s.video.oamAddr := by rw [← ht]; rfl
    have oam : t.video.oam = Memory.write s.video.oam (s.video.oamAddr + j).toNat
        (busRead s (mkWord page j)).value := by rw [← ht]; rfl
    have plain' (i : Byte) : plainMemory t (mkWord page i) = true := by
      simpa only [plainMemory, same.cart, same.params] using plain i
    rw [← oamAddr, ih (by omega) t plain' i, same.byteKept _ (plain i), oamAddr, oam, Memory.read_write]
    obtain before | here | after : i.toNat < 255 - n ∨ i.toNat = 255 - n ∨ 256 - n ≤ i.toNat := by omega
    · rw [if_neg (by omega), if_neg (place.not.2 (by omega)), if_neg (by omega)]
    · have same : i = j := by rw [← hj, ← here, BitVec.ofNat_toNat, BitVec.setWidth_eq]
      rw [if_neg (by omega), if_pos (place.2 here), if_pos (by omega), same]
    · rw [if_pos after, if_pos (by omega)]

/-- Settles O34: the whole page copied, and the stall (R127). -/
theorem spriteDmaCopiesAPage : Obligations.SpriteDmaCopiesAPage := by
  intro s page t
  refine ⟨spriteCopy_oamAddr page 256 s, ?_, fun plain i => ?_⟩
  · exact congrArg Cpu.pending (busWrite_cpu s 0x4014#16 page)
  · exact (read_spriteCopy 256 (Nat.le_refl _) s plain i).trans (if_pos (Nat.zero_le _))

end Sys2Proof.Machine
end

section
/-! PROOF. The serial mapper's writes (R118, R119). -/

namespace Sys2Proof.Machine

theorem busRead_rom {addr : Word} (h : 0x8000 ≤ addr.toNat) (s : State) :
    busRead s addr = { value := readPrg s.cart s.mapper.regs addr, state := s } := by
  simp only [busRead, windowOf_rom h]

theorem busWrite_rom {addr : Word} (h : 0x8000 ≤ addr.toNat) (s : State) (v : Byte) :
    busWrite s addr v = writeMapper s addr v := by
  simp only [busWrite, windowOf_rom h]

/-- The mirroring mode changes only if the write of the mapper says so (R113, R119). -/
theorem writeMapper_mirroring (s : State) (addr : Word) (v : Byte) :
    (writeMapper s addr v).bus.mirroring =
      (writePrg s.cart s.mapper.regs addr v).2.getD s.bus.mirroring := by
  unfold writeMapper
  dsimp only
  split <;> rename_i h <;> rw [h] <;> rfl

/-- A write to variant (b) is its serial protocol's (R118). -/
theorem busWrite_serial {s : State} {r : SerialRegs} (h : s.mapper.regs = .serial r) {addr : Word}
    (ha : 0x8000 ≤ addr.toNat) (v : Byte) :
    (busWrite s addr v).mapper.regs = .serial (serialWrite r addr v).1 ∧
      (busWrite s addr v).bus.mirroring = (serialWrite r addr v).2.getD s.bus.mirroring := by
  rw [busWrite_rom ha, writeMapper_regs, writeMapper_mirroring, h]
  exact ⟨rfl, rfl⟩

/-- The registers with `count` bits in the shift register (R117). -/
def SerialRegs.holding (r : SerialRegs) (shift : BitVec 5) (count : Nat) : SerialRegs :=
  { r with shift := shift, count := count }

theorem SerialRegs.holding_self {r : SerialRegs} {shift : BitVec 5} {count : Nat} (hs : r.shift = shift)
    (hc : r.count = count) : r.holding shift count = r := by
  subst hs hc
  rfl

theorem bitOf_seven_of_lt {v : Byte} (h : v.toNat < 128) : bitOf v 7 = false := by
  rw [bitOf_seven]
  exact decide_eq_false (by omega)

/-- A write with bit 7 clear shifts in a bit at the place the count says, and the fifth commits. -/
theorem serialWrite_holding (r : SerialRegs) (shift : BitVec 5) (count : Nat) (addr : Word) {v : Byte}
    (hv : v.toNat < 128) :
    serialWrite (r.holding shift count) addr v =
      let shift' := shift ||| bitVec 5 (bitOf v 0) <<< count
      if count + 1 = 5 then serialCommit r addr shift' else (r.holding shift' (count + 1), none) :=
  if_neg (by simp [bitOf_seven_of_lt hv])

/-- A write with bit 7 set clears the shift register and fixes the program mode. -/
theorem serialWrite_clears (r : SerialRegs) (addr : Word) {v : Byte} (hv : 128 ≤ v.toNat) :
    serialWrite r addr v =
      ({ r with shift := 0, count := 0, control := r.control ||| 0x0C#5 }, none) :=
  if_pos (by rw [bitOf_seven]; exact decide_eq_true hv)

/-- A write with bit 7 clear before the fifth, over the bus. -/
theorem busWrite_serial_shifts {s : State} {r : SerialRegs} {shift : BitVec 5} {count : Nat} {addr : Word}
    {v : Byte} (h : s.mapper.regs = .serial (r.holding shift count)) (ha : 0x8000 ≤ addr.toNat)
    (hv : v.toNat < 128) (hc : count < 4) :
    (busWrite s addr v).mapper.regs =
        .serial (r.holding (shift ||| bitVec 5 (bitOf v 0) <<< count) (count + 1)) ∧
      (busWrite s addr v).bus.mirroring = s.bus.mirroring := by
  have w := busWrite_serial h ha v
  rw [serialWrite_holding r shift count addr hv, if_neg (by omega)] at w
  exact w

/-- Five bits shifted in, first bit lowest. -/
theorem five_bits_eq (b0 b1 b2 b3 b4 : Bool) :
    (0#5 ||| bitVec 5 b0 <<< 0 ||| bitVec 5 b1 <<< 1 ||| bitVec 5 b2 <<< 2 ||| bitVec 5 b3 <<< 3 |||
        bitVec 5 b4 <<< 4) =
      BitVec.ofNat 5 (bitNat b0 + 2 * bitNat b1 + 4 * bitNat b2 + 8 * bitNat b3 + 16 * bitNat b4) := by
  revert b0 b1 b2 b3 b4
  decide

/-- `MirrorOf` (R119) as arithmetic. -/
theorem mirrorOf_low_bits (n : Nat) :
    mirrorOf (field (BitVec.ofNat 5 n) 0 2) =
      if n % 4 = 0 then .singleLow
      else if n % 4 = 1 then .singleHigh
      else if n % 4 = 2 then .vertical
      else .horizontal := by
  have low : (field (BitVec.ofNat 5 n) 0 2 : BitVec 2).toNat = n % 4 := by
    rw [toNat_field_zero, BitVec.toNat_ofNat]
    omega
  unfold mirrorOf
  rw [low]
  obtain h | h | h | h : n % 4 = 0 ∨ n % 4 = 1 ∨ n % 4 = 2 ∨ n % 4 = 3 := by omega
  all_goals rw [h]; rfl

/-- The register a commit writes, by bits 14:13 of the address (R118, R119); the shift register is empty. -/
theorem serialCommit_eq {r : SerialRegs} (shift : r.shift = 0) (count : r.count = 0) {addr : Word}
    (ha : 0x8000 ≤ addr.toNat) (value : BitVec 5) :
    (addr.toNat < 0xA000 → serialCommit r addr value =
        ({ r with control := value }, some (mirrorOf (field value 0 2)))) ∧
      (0xA000 ≤ addr.toNat → addr.toNat < 0xC000 → serialCommit r addr value =
        ({ r with chr0 := value }, none)) ∧
      (0xC000 ≤ addr.toNat → addr.toNat < 0xE000 → serialCommit r addr value =
        ({ r with chr1 := value }, none)) ∧
      (0xE000 ≤ addr.toNat → serialCommit r addr value = ({ r with prgSel := value }, none)) := by
  obtain ⟨_, _, control, chr0, chr1, prgSel⟩ := r
  dsimp only at shift count
  subst shift count
  have top := addr.isLt
  have select : (field addr 13 2 : BitVec 2).toNat = addr.toNat / 8192 % 4 := toNat_field addr 13 2
  unfold serialCommit
  rw [select]
  refine ⟨fun h1 => ?_, fun h0 h1 => ?_, fun h0 h1 => ?_, fun h0 => ?_⟩
  · rw [show addr.toNat / 8192 % 4 = 0 by omega]
    rfl
  · rw [show addr.toNat / 8192 % 4 = 1 by omega]
    rfl
  · rw [show addr.toNat / 8192 % 4 = 2 by omega]
    rfl
  · rw [show addr.toNat / 8192 % 4 = 3 by omega]
    rfl

/-- Five writes with bit 7 clear commit five bits to an empty shift register (R118). -/
theorem five_serial_writes {s : State} {r : SerialRegs} (hr : s.mapper.regs = .serial r)
    (shift : r.shift = 0) (count : r.count = 0) {a0 a1 a2 a3 a4 : Word} {v0 v1 v2 v3 v4 : Byte}
    (ha : 0x8000 ≤ a0.toNat ∧ 0x8000 ≤ a1.toNat ∧ 0x8000 ≤ a2.toNat ∧ 0x8000 ≤ a3.toNat ∧
      0x8000 ≤ a4.toNat)
    (hv : v0.toNat < 128 ∧ v1.toNat < 128 ∧ v2.toNat < 128 ∧ v3.toNat < 128 ∧ v4.toNat < 128) :
    let t := busWrite (busWrite (busWrite (busWrite (busWrite s a0 v0) a1 v1) a2 v2) a3 v3) a4 v4
    let n := v0.toNat % 2 + 2 * (v1.toNat % 2) + 4 * (v2.toNat % 2) + 8 * (v3.toNat % 2) + 16 * (v4.toNat % 2)
    t.mapper.regs = .serial (serialCommit r a4 (BitVec.ofNat 5 n)).1 ∧
      t.bus.mirroring = (serialCommit r a4 (BitVec.ofNat 5 n)).2.getD s.bus.mirroring := by
  obtain ⟨ha0, ha1, ha2, ha3, ha4⟩ := ha
  obtain ⟨hv0, hv1, hv2, hv3, hv4⟩ := hv
  rw [← SerialRegs.holding_self shift count] at hr
  obtain ⟨r1, m1⟩ := busWrite_serial_shifts hr ha0 hv0 (by decide)
  obtain ⟨r2, m2⟩ := busWrite_serial_shifts r1 ha1 hv1 (by decide)
  obtain ⟨r3, m3⟩ := busWrite_serial_shifts r2 ha2 hv2 (by decide)
  obtain ⟨r4, m4⟩ := busWrite_serial_shifts r3 ha3 hv3 (by decide)
  obtain ⟨r5, m5⟩ := busWrite_serial r4 ha4 v4
  rw [serialWrite_holding r _ _ a4 hv4, if_pos rfl] at r5 m5
  have value := five_bits_eq (bitOf v0 0) (bitOf v1 0) (bitOf v2 0) (bitOf v3 0) (bitOf v4 0)
  simp only [bitNat_bitOf, Nat.pow_zero, Nat.div_one] at value
  intro t n
  rw [← value, ← m1, ← m2, ← m3, ← m4]
  exact ⟨r5, m5⟩

/-- Settles O35: five writes commit where the fifth address says, and a write with bit 7 set clears. -/
theorem serialMapperCommits : Obligations.SerialMapperCommits := by
  refine ⟨?_, fun s r addr v hr ha hv => ?_⟩
  · intro s r a0 a1 a2 a3 a4 v0 v1 v2 v3 v4 hr shift count ha hv t n mirror
    have committed {q : SerialRegs × Option Mirroring} (hq : serialCommit r a4 (BitVec.ofNat 5 n) = q) :
        t.mapper.regs = .serial q.1 ∧ t.bus.mirroring = q.2.getD s.bus.mirroring :=
      hq ▸ five_serial_writes hr shift count ha hv
    have mode : mirrorOf (field (BitVec.ofNat 5 n) 0 2) = mirror := mirrorOf_low_bits n
    obtain ⟨-, -, -, -, ha4⟩ := ha
    obtain ⟨control, chr0, chr1, prgSel⟩ := serialCommit_eq shift count ha4 (BitVec.ofNat 5 n)
    exact ⟨fun h1 => mode ▸ committed (control h1), fun h0 h1 => committed (chr0 h0 h1),
      fun h0 h1 => committed (chr1 h0 h1), fun h0 => committed (prgSel h0)⟩
  · have w := busWrite_serial hr ha v
    rw [serialWrite_clears r addr hv] at w
    exact w

end Sys2Proof.Machine
end

section
/-! PROOF. The bytes the mapper answers with: which they are (R116, R120, R123, R124), and that they lie inside
the cartridge (R115). -/

namespace Sys2Proof.Machine

/-- Bit 14 of an address of the ROM window is its half (R120). -/
theorem bitOf_fourteen {addr : Word} (h : 0x8000 ≤ addr.toNat) :
    bitOf addr 14 = decide (¬addr.toNat < 0xC000) := by
  have top := addr.isLt
  rw [bitOf_eq, decide_eq_decide]
  omega

/-- The bank of variant (b) (R120) as arithmetic. -/
theorem serialPrgBank_eq (c : Cartridge) (r : SerialRegs) (half : Bool) :
    serialPrgBank c r half =
      let b := r.prgSel.toNat % 16
      let mode := r.control.toNat / 4 % 4
      let hi := bitNat half
      if mode ≤ 1 then (b / 2 * 2 + hi) % c.prgBanks
      else if mode = 2 then (if hi = 0 then 0 else b % c.prgBanks)
      else (if hi = 0 then b % c.prgBanks else c.prgBanks - 1) := by
  have mode : (field r.control 2 2 : BitVec 2).toNat = r.control.toNat / 4 % 4 := toNat_field _ 2 2
  have bank : (field r.prgSel 0 4 : BitVec 4).toNat = r.prgSel.toNat % 16 := toNat_field_zero _ 4
  unfold serialPrgBank
  rw [mode, bank]
  obtain h | h | h | h : r.control.toNat / 4 % 4 = 0 ∨ r.control.toNat / 4 % 4 = 1 ∨
      r.control.toNat / 4 % 4 = 2 ∨ r.control.toNat / 4 % 4 = 3 := by omega
  all_goals
    rw [h]
    cases half <;> rfl

/-! The cell of program ROM in the variants of one bank register or none (R116, R123, R124). -/

theorem prgIndex_fixed (c : Cartridge) (addr : Word) :
    prgIndex c .fixed addr = (addr.toNat - 0x8000) % (c.prgBanks * 16384) := rfl

theorem prgIndex_chrSwitch (c : Cartridge) (bank : Nat) (addr : Word) :
    prgIndex c (.chrSwitch bank) addr = (addr.toNat - 0x8000) % (c.prgBanks * 16384) := rfl

theorem prgIndex_prgSwitch {addr : Word} (h : 0x8000 ≤ addr.toNat) (c : Cartridge) (bank : Nat) :
    prgIndex c (.prgSwitch bank) addr =
      if addr.toNat < 0xC000 then bank * 16384 + addr.toNat % 16384
      else (c.prgBanks - 1) * 16384 + addr.toNat % 16384 := by
  simp only [prgIndex, bitOf_fourteen h, toNat_field_zero, Nat.reducePow, decide_eq_true_eq]
  by_cases lower : addr.toNat < 0xC000
  · rw [if_neg (not_not_intro lower), if_pos lower]
  · rw [if_pos lower, if_neg lower]

theorem setMapper_self {s : State} {m : MapperRegs} (h : s.mapper.regs = m) :
    s.setMapper { s.mapper with regs := m } = s := by
  subst h
  rfl

/-- A store to the ROM window, from what the mapper makes of it. -/
theorem busWrite_rom_regs {addr : Word} (h : 0x8000 ≤ addr.toNat) {s : State} {m : MapperRegs}
    (hm : s.mapper.regs = m) (v : Byte) :
    (busWrite s addr v).mapper.regs = (writePrg s.cart m addr v).1 := by
  rw [busWrite_rom h, writeMapper_regs, hm]

/-- A read of the ROM window, from the cell the mapper chooses. -/
theorem busRead_rom_value {addr : Word} (h : 0x8000 ≤ addr.toNat) {s : State} {m : MapperRegs}
    (hm : s.mapper.regs = m) :
    (busRead s addr).value = Memory.read s.cart.prg (prgIndex s.cart m addr) := by
  rw [busRead_rom h, hm]
  rfl

/-- Settles O36: the cell each variant reads, and the bank each variant takes from a write. -/
theorem programBanks : Obligations.ProgramBanks := by
  intro s addr v h n off hi rom
  have offset : (field addr 0 14 : BitVec 14).toNat = off := toNat_field_zero addr 14
  refine ⟨by rw [busRead_rom h], ?_, fun fixed one lower => ?_, fun fixed => ?_, fun b switch => ⟨?_, ?_⟩,
    fun b switch => busWrite_rom_regs h switch v, fun r serial => ?_⟩
  · rintro (fixed | ⟨b, switch⟩)
    · rw [busRead_rom_value h fixed, prgIndex_fixed]
    · rw [busRead_rom_value h switch, prgIndex_chrSwitch]
  · have up : (addr + 0x4000#16).toNat = addr.toNat + 0x4000 := by
      rw [BitVec.toNat_add]
      exact Nat.mod_eq_of_lt (by simp; omega)
    have cell : prgIndex s.cart .fixed (addr + 0x4000#16) = prgIndex s.cart .fixed addr := by
      simp only [prgIndex_fixed, up, show s.cart.prgBanks = 1 from one]
      omega
    rw [busRead_rom_value (by omega) fixed, busRead_rom_value h fixed, cell]
  · rw [busWrite_rom h, writeMapper, fixed]
    exact setMapper_self fixed
  · rw [busRead_rom_value h switch, prgIndex_prgSwitch h]
  · exact busWrite_rom_regs h switch v
  · have half : bitNat (bitOf addr 14) = hi := bitNat_bitOf addr 14
    rw [busRead_rom_value h serial]
    simp only [prgIndex, serialPrgBank_eq, half, offset]
    rfl

theorem bank_offset_lt {banks bank : Nat} (off : BitVec 14) (h : bank < banks) :
    bank * 16384 + off.toNat < banks * 16384 := by
  have := off.isLt
  omega

theorem serialPrgBank_lt {c : Cartridge} (h : 1 ≤ c.prgBanks) (r : SerialRegs) (hi : Bool) :
    serialPrgBank c r hi < c.prgBanks := by
  have mod (k : Nat) : k % c.prgBanks < c.prgBanks := Nat.mod_lt k h
  unfold serialPrgBank
  dsimp only
  split
  · split
    · exact mod _
    · exact h
  · split
    · omega
    · exact mod _
  · exact mod _

theorem prgIndex_lt {c : Cartridge} {m : MapperRegs} (hc : 1 ≤ c.prgBanks) (hm : m.inBounds c = true)
    (addr : Word) : prgIndex c m addr < c.prgBanks * 16384 := by
  cases m with
  | fixed => exact Nat.mod_lt _ (by omega)
  | chrSwitch bank => exact Nat.mod_lt _ (by omega)
  | serial r => exact bank_offset_lt _ (serialPrgBank_lt hc r _)
  | prgSwitch bank =>
    have hb : bank < c.prgBanks := of_decide_eq_true hm
    refine bank_offset_lt _ ?_
    split <;> omega

/-- With graphics ROM, the 4 KB banks of variant (b) are those of the cartridge (R121). -/
theorem serialChrBank_lt {c : Cartridge} (h : c.chrBanks ≠ 0) (r : SerialRegs) (hi : Bool) :
    serialChrBank c r hi < 2 * c.chrBanks := by
  unfold serialChrBank
  simp only [h, if_false]
  split_ifs <;> exact Nat.mod_lt _ (by omega)

theorem chrIndex_lt_chrRom {c : Cartridge} {m : MapperRegs} (hc : c.chrBanks ≠ 0)
    (hm : m.inBounds c = true) (a : BitVec 13) : chrIndex c m a < c.chrBanks * 8192 := by
  have ha := a.isLt
  cases m with
  | fixed => simp only [chrIndex]; omega
  | prgSwitch bank => simp only [chrIndex]; omega
  | serial r =>
    have bank := serialChrBank_lt hc r (bitOf a 12)
    have off := (field a 0 12 : BitVec 12).isLt
    simp only [chrIndex]
    omega
  | chrSwitch bank =>
    have hb : bank = 0 ∨ bank < c.chrBanks := of_decide_eq_true hm
    simp only [chrIndex, hc, if_false]
    omega

/-- Settles O37: every index the mapper computes is below the size of the memory it reads. -/
theorem bankPointersStayInBounds : Obligations.BankPointersStayInBounds := by
  intro s ok
  obtain ⟨valid, -, bounds⟩ := State.mapperOk_iff.1 ok
  refine ⟨fun addr _ => prgIndex_lt (Cartridge.one_le_prgBanks valid) bounds addr, fun a => ?_⟩
  split
  case isTrue ram => exact chrIndex_lt_chrRam ram _ a
  case isFalse rom => exact chrIndex_lt_chrRom rom bounds a

end Sys2Proof.Machine
end

section
/-! PROOF. The video address space (R111 to R114): the cell behind each address, and what a write of one cell
leaves of the others. -/

namespace Sys2Proof.Machine

/-! ### The three windows -/

theorem videoRead_pattern (s : State) {a : BitVec 14} (h : a.toNat < 0x2000) :
    videoRead s a = readChr s.cart s.mapper (field a 0 13) := if_pos h

theorem videoRead_nametable (s : State) {a : BitVec 14} (h : 0x2000 ≤ a.toNat ∧ a.toNat < 0x3F00) :
    videoRead s a = Memory.read s.bus.vram (nametableIndex s.bus.mirroring a) :=
  (if_neg (Nat.not_lt.2 h.1)).trans (if_pos h.2)

theorem videoRead_palette (s : State) {a : BitVec 14} (h : 0x3F00 ≤ a.toNat) :
    videoRead s a = Memory.read s.bus.palette (paletteIndex a) :=
  (if_neg (by omega)).trans (if_neg (Nat.not_lt.2 h))

theorem videoWrite_pattern (s : State) {a : BitVec 14} (v : Byte) (h : a.toNat < 0x2000) :
    videoWrite s a v = s.setMapper (writeChr s.cart s.mapper (field a 0 13) v) := if_pos h

theorem videoWrite_nametable (s : State) {a : BitVec 14} (v : Byte)
    (h : 0x2000 ≤ a.toNat ∧ a.toNat < 0x3F00) :
    videoWrite s a v =
      s.setBus
        { s.bus with vram := Memory.write s.bus.vram (nametableIndex s.bus.mirroring a) v } :=
  (if_neg (Nat.not_lt.2 h.1)).trans (if_pos h.2)

theorem videoWrite_palette (s : State) {a : BitVec 14} (v : Byte) (h : 0x3F00 ≤ a.toNat) :
    videoWrite s a v =
      s.setBus { s.bus with palette := Memory.write s.bus.palette (paletteIndex a) v } :=
  (if_neg (by omega)).trans (if_neg (Nat.not_lt.2 h))

/-- The Bus serves the windows above the pattern tables, the Mapper the one below (R111). -/
theorem videoRead_setMapper (s : State) (m : MapperState) {a : BitVec 14} (h : 0x2000 ≤ a.toNat) :
    videoRead (s.setMapper m) a = videoRead s a := by
  obtain low | high := Nat.lt_or_ge a.toNat 0x3F00
  · rw [videoRead_nametable _ ⟨h, low⟩, videoRead_nametable _ ⟨h, low⟩]
    rfl
  · rw [videoRead_palette _ high, videoRead_palette _ high]
    rfl

theorem videoRead_setBus (s : State) (b : BusState) {a : BitVec 14} (h : a.toNat < 0x2000) :
    videoRead (s.setBus b) a = videoRead s a := by
  rw [videoRead_pattern _ h, videoRead_pattern _ h]
  rfl

/-! ### The cells -/

/-- The palette cell (R114) as arithmetic. -/
theorem paletteIndex_eq (a : BitVec 14) :
    paletteIndex a = if a.toNat % 32 = 16 then 0 else a.toNat % 32 := by
  unfold paletteIndex
  rw [toNat_field_zero]
  rfl

theorem toNat_field_pattern {a : BitVec 14} (h : a.toNat < 0x2000) :
    (field a 0 13 : BitVec 13).toNat = a.toNat := by
  rw [toNat_field_zero]
  exact Nat.mod_eq_of_lt h

/-- The 4 KB graphics bank of variant (b) (R121) as arithmetic. -/
theorem serialChrBank_eq (c : Cartridge) (r : SerialRegs) (half : Bool) :
    serialChrBank c r half =
      let m := if c.chrBanks = 0 then 2 else 2 * c.chrBanks
      let hi := bitNat half
      if r.control.toNat / 16 = 0 then (r.chr0.toNat / 2 * 2 + hi) % m
      else if hi = 0 then r.chr0.toNat % m
      else r.chr1.toNat % m := by
  have top := r.control.isLt
  have mode : bitOf r.control 4 = decide (¬r.control.toNat / 16 = 0) := by
    rw [bitOf_eq, decide_eq_decide]
    omega
  unfold serialChrBank
  rw [mode]
  by_cases whole : r.control.toNat / 16 = 0
  · simp [whole]
  · cases half <;> simp [whole, bitNat]

theorem chrIndex_serial (c : Cartridge) (r : SerialRegs) (a : BitVec 13) :
    chrIndex c (.serial r) a =
      let m := if c.chrBanks = 0 then 2 else 2 * c.chrBanks
      let hi := a.toNat / 4096
      (if r.control.toNat / 16 = 0 then (r.chr0.toNat / 2 * 2 + hi) % m
        else if hi = 0 then r.chr0.toNat % m
        else r.chr1.toNat % m) * 4096 + a.toNat % 4096 := by
  have top := a.isLt
  have half : bitNat (bitOf a 12) = a.toNat / 4096 := by
    rw [bitNat_bitOf]
    omega
  simp only [chrIndex, serialChrBank_eq, half, toNat_field_zero, Nat.reducePow]

/-- The graphics byte at an address of the pattern window, from the cell the mapper chooses (R112, R115). -/
theorem videoRead_pattern_cell {s : State} {m : MapperRegs} (hm : s.mapper.regs = m) {a : BitVec 14}
    (h : a.toNat < 0x2000) :
    videoRead s a =
      Memory.read (if s.cart.chrBanks = 0 then s.mapper.chrRam else s.cart.chr)
        (chrIndex s.cart m (field a 0 13)) := by
  rw [videoRead_pattern s h, readChr, hm]

/-- A write of the pattern window lands in character RAM (R112, R115). -/
theorem videoWrite_chrRam {s : State} (ram : s.cart.chrBanks = 0) {a : BitVec 14} (v : Byte)
    (h : a.toNat < 0x2000) :
    videoWrite s a v =
      s.setMapper
        { s.mapper with
          chrRam := Memory.write s.mapper.chrRam (chrIndex s.cart s.mapper.regs (field a 0 13)) v } := by
  rw [videoWrite_pattern s v h, writeChr, if_pos ram]

/-- Graphics ROM takes no write (R112, R115). -/
theorem videoWrite_chrRom {s : State} (rom : s.cart.chrBanks ≠ 0) {a : BitVec 14} (v : Byte)
    (h : a.toNat < 0x2000) : videoWrite s a v = s := by
  rw [videoWrite_pattern s v h, writeChr, if_neg rom]
  rfl

/-- A graphics byte after a write of character RAM. -/
theorem videoRead_videoWrite_chrRam {s : State} (ram : s.cart.chrBanks = 0) {a b : BitVec 14} (v : Byte)
    (ha : a.toNat < 0x2000) (hb : b.toNat < 0x2000) :
    videoRead (videoWrite s a v) b =
      if chrIndex s.cart s.mapper.regs (field a 0 13) = chrIndex s.cart s.mapper.regs (field b 0 13) then v
      else videoRead s b := by
  rw [videoWrite_chrRam ram v ha, videoRead_pattern_cell rfl hb, videoRead_pattern_cell rfl hb]
  simp only [State.setMapper_cart, State.setMapper_mapper, ram, if_true, Memory.read_write, eq_comm]

/-- Settles O38: each window is one memory, and a cell of it is an index computed from the address. -/
theorem videoAddressSpace : Obligations.VideoAddressSpace := by
  refine ⟨?_, ?_⟩
  · intro s a b v cell colour nametable
    have cells (x : BitVec 14) : nametableIndex s.bus.mirroring x = cell x.toNat := by
      simp only [cell, nametableIndex, toNat_field_zero]
      cases s.bus.mirroring <;> simp only [bitNat_bitOf] <;> rfl
    have colours (x : BitVec 14) : paletteIndex x = colour x.toNat := paletteIndex_eq x
    refine ⟨fun ha => ?_, fun ha => ?_⟩
    · rw [videoWrite_nametable s v ha]
      refine ⟨fun hb => ?_, fun hb => ?_, rfl⟩
      · rw [videoRead_nametable _ hb, videoRead_nametable _ hb]
        simp only [State.setBus_bus, Memory.read_write, cells, eq_comm]
      · obtain low | high : b.toNat < 0x2000 ∨ 0x3F00 ≤ b.toNat := by
          simp only [nametable] at hb
          omega
        · exact videoRead_setBus s _ low
        · rw [videoRead_palette _ high, videoRead_palette _ high]
          rfl
    · rw [videoWrite_palette s v ha]
      refine ⟨fun hb => ?_, fun hb => ?_, rfl⟩
      · rw [videoRead_palette _ hb, videoRead_palette _ hb]
        simp only [State.setBus_bus, Memory.read_write, colours, eq_comm]
      · obtain low | low : b.toNat < 0x2000 ∨ (0x2000 ≤ b.toNat ∧ b.toNat < 0x3F00) := by omega
        · exact videoRead_setBus s _ low
        · rw [videoRead_nametable _ low, videoRead_nametable _ low]
          rfl
  · intro s a b v ha ram chr ramCell
    have whole : (field a 0 13 : BitVec 13).toNat = a.toNat := toNat_field_pattern ha
    have isRam : ram = true ↔ s.cart.chrBanks = 0 := decide_eq_true_iff
    have read {m : MapperRegs} (hm : s.mapper.regs = m) :
        videoRead s a = chr (chrIndex s.cart m (field a 0 13)) := by
      simp only [chr, isRam]
      exact videoRead_pattern_cell hm ha
    refine ⟨?_, fun b switch => ?_, fun r serial => ?_, fun rom => ?_, fun hr => ?_⟩
    · rintro (fixed | ⟨b, switch⟩)
      · rw [read fixed, chrIndex, whole]
      · rw [read switch, chrIndex, whole]
    · rw [read switch, chrIndex, whole]
      simp only [isRam]
    · rw [read serial, chrIndex_serial, whole]
      simp only [isRam]
    · exact videoWrite_chrRom (fun h => by simp [isRam.2 h] at rom) v ha
    · have noRom := isRam.1 hr
      have cells {x : BitVec 14} (hx : x.toNat < 0x2000) :
          chrIndex s.cart s.mapper.regs (field x 0 13) = ramCell x.toNat := by
        simp only [ramCell]
        cases s.mapper.regs with
        | serial r =>
          simp only [chrIndex_serial, toNat_field_pattern hx, noRom, if_true]
          split_ifs <;> omega
        | fixed => exact toNat_field_pattern hx
        | prgSwitch bank => exact toNat_field_pattern hx
        | chrSwitch bank => simp only [chrIndex, noRom, if_true, toNat_field_pattern hx]
      refine ⟨fun hb => ?_, fun hb => ?_, ?_⟩
      · rw [videoRead_videoWrite_chrRam noRom v ha hb, cells ha, cells hb]
      · rw [videoWrite_chrRam noRom v ha]
        exact videoRead_setMapper s _ hb
      · rw [videoWrite_chrRam noRom v ha]
        rfl

end Sys2Proof.Machine
end

section
/-! PROOF. The controller ports (R128 to R130): the shift register after any number of reads. -/

namespace Sys2Proof.Machine

/-- The value of a controller read (R130) as arithmetic. -/
theorem padByte_eq (b : Bool) : padByte b = BitVec.ofNat 8 (64 + bitNat b) := by
  cases b <;> rfl

/-- The shift of a controller read (R130) as arithmetic. -/
theorem shiftPad_eq (p : Byte) :
    shiftPad p = BitVec.ofNat 8 (p.toNat / 2 + 128 * bitNat Config.controllerExhaustedBit) := by
  unfold shiftPad
  generalize Config.controllerExhaustedBit = e
  revert p e
  decide

theorem bitOf_shiftPad (p : Byte) {j : Nat} (hj : j < 8) :
    bitOf (shiftPad p) j = if j = 7 then Config.controllerExhaustedBit else bitOf p (j + 1) := by
  have above : bitOf (bitVec 8 Config.controllerExhaustedBit <<< 7) j =
      (decide (j = 7) && Config.controllerExhaustedBit) := by
    generalize Config.controllerExhaustedBit = e
    revert j e
    decide
  unfold shiftPad
  simp only [bitOf, BitVec.getLsbD_or, BitVec.getLsbD_ushiftRight] at above ⊢
  rw [above, Nat.add_comm 1 j]
  split
  case isTrue h7 => simp [h7]
  case isFalse h7 => simp [h7]

/-- After `k` reads (R130): the bits above the `k`-th have moved down, exhausted bits have come in. -/
theorem bitOf_iterate_shiftPad (p : Byte) (k : Nat) : ∀ {j : Nat}, j < 8 →
    bitOf (Nat.iterate shiftPad k p) j =
      if j + k < 8 then bitOf p (j + k) else Config.controllerExhaustedBit := by
  induction k with
  | zero => exact fun hj => (if_pos hj).symm
  | succ k ih =>
    intro j hj
    rw [Function.iterate_succ_apply', bitOf_shiftPad _ hj]
    by_cases last : j = 7
    · rw [if_pos last, if_neg (by omega)]
    · rw [if_neg last, ih (by omega), Nat.add_right_comm, Nat.add_assoc]

/-- The state with the shift register of controller 0 replaced. -/
def State.withPad0 (s : State) (p : Byte) : State := s.setBus { s.bus with pad0 := p }

/-- The state with the shift register of controller 1 replaced. -/
def State.withPad1 (s : State) (p : Byte) : State := s.setBus { s.bus with pad1 := p }

/-! Reads with the strobe low (R130): they shift the register and do nothing else. -/

section
variable {s : State} (low : s.bus.strobe = false)
include low

theorem busRead_pad0_low (p : Byte) :
    busRead (s.withPad0 p) 0x4016#16 =
      { value := padByte (bitOf p 0), state := s.withPad0 (shiftPad p) } :=
  if_neg (by simp [State.withPad0, low])

theorem busRead_pad1_low (p : Byte) :
    busRead (s.withPad1 p) 0x4017#16 =
      { value := padByte (bitOf p 0), state := s.withPad1 (shiftPad p) } :=
  if_neg (by simp [State.withPad1, low])

theorem iterate_read_pad0 (k : Nat) (p : Byte) :
    Nat.iterate (fun u => (busRead u 0x4016#16).state) k (s.withPad0 p) =
      s.withPad0 (Nat.iterate shiftPad k p) :=
  (Function.Semiconj.iterate_right (f := s.withPad0)
    (fun q => (congrArg ReadResult.state (busRead_pad0_low low q)).symm) k p).symm

theorem iterate_read_pad1 (k : Nat) (p : Byte) :
    Nat.iterate (fun u => (busRead u 0x4017#16).state) k (s.withPad1 p) =
      s.withPad1 (Nat.iterate shiftPad k p) :=
  (Function.Semiconj.iterate_right (f := s.withPad1)
    (fun q => (congrArg ReadResult.state (busRead_pad1_low low q)).symm) k p).symm

/-- The byte a read of controller 0 returns after `k` others. -/
theorem read_pad0_after (k : Nat) :
    (busRead (Nat.iterate (fun u => (busRead u 0x4016#16).state) k s) 0x4016#16).value =
      padByte (bitOf (Nat.iterate shiftPad k s.bus.pad0) 0) := by
  have h := iterate_read_pad0 low k s.bus.pad0
  rw [show s.withPad0 s.bus.pad0 = s from rfl] at h
  rw [h, busRead_pad0_low low]

/-- The byte a read of controller 1 returns after `k` others. -/
theorem read_pad1_after (k : Nat) :
    (busRead (Nat.iterate (fun u => (busRead u 0x4017#16).state) k s) 0x4017#16).value =
      padByte (bitOf (Nat.iterate shiftPad k s.bus.pad1) 0) := by
  have h := iterate_read_pad1 low k s.bus.pad1
  rw [show s.withPad1 s.bus.pad1 = s from rfl] at h
  rw [h, busRead_pad1_low low]

end

theorem busRead_pad0_high {s : State} (high : s.bus.strobe = true) :
    busRead s 0x4016#16 =
      { value := padByte (bitOf (Config.buttons 0 s.draws) 0), state := s.setDraws (s.draws + 1) } :=
  if_pos high

theorem busRead_pad1_high {s : State} (high : s.bus.strobe = true) :
    busRead s 0x4017#16 =
      { value := padByte (bitOf (Config.buttons 1 s.draws) 0), state := s.setDraws (s.draws + 1) } :=
  if_pos high

/-- The falling strobe captures both controllers (R129). -/
theorem busWrite_strobe_falls {s : State} {v : Byte} (high : s.bus.strobe = true) (even : v.toNat % 2 = 0) :
    (busWrite s 0x4016#16 v).bus =
      { s.bus with
        strobe := false, pad0 := Config.buttons 0 s.draws, pad1 := Config.buttons 1 s.draws } := by
  have clear : bitOf v 0 = false := by rw [bitOf_zero, even]; rfl
  show (writeStrobe s v).bus = _
  unfold writeStrobe
  rw [high, clear]
  rfl

/-- Any other write of the strobe sets the line and nothing else (R129). -/
theorem busWrite_strobe_keeps {s : State} {v : Byte} (h : s.bus.strobe = false ∨ v.toNat % 2 = 1) :
    (busWrite s 0x4016#16 v).bus = { s.bus with strobe := decide (v.toNat % 2 = 1) } := by
  show (writeStrobe s v).bus = _
  unfold writeStrobe
  rw [bitOf_zero]
  obtain h | h := h <;> simp [h]

/-- Settles O45: a read shows bit 0 of the shift register, which after `k` reads is the `k`-th button. -/
theorem controllersShiftOutButtons : Obligations.ControllersShiftOutButtons := by
  intro s v read0 read1 captured exhausted reads
  have exhaust : exhausted = bitNat Config.controllerExhaustedBit := rfl
  have shown (p : Byte) (k : Nat) : padByte (bitOf (Nat.iterate shiftPad k p) 0) = reads p k := by
    rw [padByte_eq, bitOf_iterate_shiftPad p k (by decide), Nat.zero_add]
    simp only [reads, exhaust]
    split
    · rw [bitNat_bitOf]
    · rfl
  refine ⟨fun high even k => ?_, fun high => ?_, busWrite_strobe_falls, busWrite_strobe_keeps,
    fun low => ?_⟩
  · have fallen := busWrite_strobe_falls high even
    have low : captured.bus.strobe = false := by rw [fallen]
    have pad0 : captured.bus.pad0 = Config.buttons 0 s.draws := by rw [fallen]
    have pad1 : captured.bus.pad1 = Config.buttons 1 s.draws := by rw [fallen]
    rw [← shown, ← shown, ← pad0, ← pad1]
    exact ⟨read_pad0_after low k, read_pad1_after low k⟩
  · rw [busRead_pad0_high high, busRead_pad1_high high]
    exact ⟨shown _ 0, shown _ 0, rfl, rfl⟩
  · have bit (p : Byte) : padByte (bitOf p 0) = BitVec.ofNat 8 (64 + p.toNat % 2) := by
      rw [padByte_eq, bitNat_bitOf, Nat.pow_zero, Nat.div_one]
    rw [exhaust, ← shiftPad_eq, ← shiftPad_eq, ← bit, ← bit]
    exact ⟨busRead_pad0_low low s.bus.pad0, busRead_pad1_low low s.bus.pad1⟩

end Sys2Proof.Machine
end

section
/-! PROOF. The loader's contract and the start of a session (R101, R102, R125, R570). -/

namespace Sys2Proof.Machine

/-! ### The loader's checks, as the header's bytes -/

theorem headerByte_eq (file : List Byte) (k : Nat) : headerByte file k = file.getD k 0 := rfl

theorem headerByte_eq_zero_iff (file : List Byte) (k : Nat) :
    headerByte file k = 0 ↔ (file.getD k 0).toNat = 0 := BitVec.toNat_inj.symm

theorem trainer_iff (file : List Byte) :
    bitOf (headerByte file 6) 2 = true ↔ ¬(file.getD 6 0).toNat / 4 % 2 = 0 := by
  rw [bitOf_eq, decide_eq_true_iff, headerByte_eq]
  omega

/-- A file from which the loader makes a cartridge (R101). -/
structure Loadable (file : List Byte) : Prop where
  magic : file.take 4 = [0x4E#8, 0x45#8, 0x53#8, 0x1A#8]
  banks : (file.getD 4 0).toNat ≠ 0
  plain : (file.getD 6 0).toNat / 4 % 2 = 0
  whole : fileSize file ≤ file.length

theorem header_le_fileSize (file : List Byte) : 16 ≤ fileSize file := by
  unfold fileSize
  omega

/-- The loader accepts exactly the loadable files. -/
theorem loadCartridge_ok_iff {file : List Byte} {c : Cartridge} :
    loadCartridge (some file) = .ok c ↔ Loadable file ∧ c = cartridgeOf file := by
  have header := header_le_fileSize file
  rw [loadCartridge]
  simp only [headerByte_eq_zero_iff, trainer_iff]
  constructor
  · intro h
    split_ifs at h with short magic banks trainer size
    cases h
    exact ⟨⟨not_not.1 magic, banks, trainer, Nat.le_of_not_lt size⟩, rfl⟩
  · rintro ⟨⟨magic, banks, plain, whole⟩, rfl⟩
    rw [if_neg (by omega), if_neg (not_not_intro magic), if_neg banks, if_neg (not_not_intro plain),
      if_neg (Nat.not_lt.2 whole)]

/-! ### The cartridge of a file -/

/-- The mapper id (R101) as arithmetic: the high nibbles of two header bytes. -/
theorem headerMapperId_eq (file : List Byte) :
    headerMapperId file = (file.getD 7 0).toNat / 16 * 16 + (file.getD 6 0).toNat / 16 := by
  have high (x : Byte) : (x &&& 0xF0#8).toNat = 2 ^ 4 * (x.toNat / 16) := by revert x; decide
  have low (x : Byte) : (x >>> 4).toNat = x.toNat / 16 := by revert x; decide
  have top := (headerByte file 6).isLt
  rw [headerMapperId, BitVec.toNat_or, high, low, ← Nat.two_pow_add_eq_or_of_lt (by omega), Nat.mul_comm]
  rfl

theorem cartridgeOf_mirroring (file : List Byte) :
    (cartridgeOf file).mirroring = if (file.getD 6 0).toNat % 2 = 1 then .vertical else .horizontal := by
  simp only [cartridgeOf, bitOf_zero, headerByte_eq, decide_eq_true_eq]

theorem cartridgeOf_battery (file : List Byte) :
    (cartridgeOf file).battery = decide ((file.getD 6 0).toNat / 2 % 2 = 1) :=
  bitOf_eq (headerByte file 6) 1

theorem cartridgeOf_region (file : List Byte) :
    (cartridgeOf file).region = if (file.getD 9 0).toNat % 2 = 1 then .pal else .ntsc := by
  simp only [cartridgeOf, bitOf_zero, headerByte_eq, decide_eq_true_eq]

/-- A stretch of a file, byte by byte. -/
theorem getD_take_drop {α : Type} (l : List α) (m : Nat) {n k : Nat} (d : α) (h : k < n) :
    ((l.drop m).take n).getD k d = l.getD (m + k) d := by
  simp only [List.getD_eq_getElem?_getD, List.getElem?_take_of_lt h, List.getElem?_drop]

theorem read_cartridgeOf_prg (file : List Byte) {k : Nat} (h : k < (file.getD 4 0).toNat * 16384) :
    Memory.read (cartridgeOf file).prg k = file.getD (16 + k) 0 := by
  have read := Memory.read_ofBytes ((file.drop 16).take ((file.getD 4 0).toNat * 16384)) 0 k
  rw [Nat.zero_add, getD_take_drop _ _ _ h] at read
  exact read

/-- Graphics ROM follows program ROM in the file (R101). -/
theorem read_cartridgeOf_chr (file : List Byte) {k : Nat} (h : k < (file.getD 5 0).toNat * 8192) :
    Memory.read (cartridgeOf file).chr k = file.getD (16 + (file.getD 4 0).toNat * 16384 + k) 0 := by
  have read := Memory.read_ofBytes (((file.drop 16).drop ((file.getD 4 0).toNat * 16384)).take
    ((file.getD 5 0).toNat * 8192)) 0 k
  rw [Nat.zero_add] at read
  refine read.trans ?_
  rw [List.drop_drop, getD_take_drop _ _ _ h]
  rfl

theorem cartridgeOf_valid {file : List Byte} (h : (file.getD 4 0).toNat ≠ 0) :
    (cartridgeOf file).valid = true := by
  have fits {size : Nat} (bytes : List Byte) : Memory.wf size (Memory.ofBytes 0 (bytes.take size)) = true :=
    Memory.wf_ofBytes (List.length_take_le size bytes)
  have byte (x : Byte) : x.toNat ≤ 255 := Nat.le_of_lt_succ x.isLt
  simp only [Cartridge.valid, Bool.and_eq_true, decide_eq_true_eq]
  exact ⟨⟨⟨⟨⟨Nat.one_le_iff_ne_zero.2 h, byte _⟩, byte _⟩, byte _⟩, fits _⟩, fits _⟩

/-! ### The start -/

/-- The supported mappers are those of ids 0 to 3 (R115, R125). -/
theorem ofId_supported {id : Nat} (h : id ≤ 3) : ∃ regs, MapperRegs.ofId id = some regs := by
  obtain rfl | rfl | rfl | rfl : id = 0 ∨ id = 1 ∨ id = 2 ∨ id = 3 := by omega
  all_goals exact ⟨_, rfl⟩

theorem ofId_unsupported {id : Nat} (h : 3 < id) : MapperRegs.ofId id = none := by
  unfold MapperRegs.ofId
  split
  case h_5 => rfl
  all_goals omega

/-- Settles O59: the checks in their order, the payload as two stretches of the file. -/
theorem sessionStart : Obligations.SessionStart := by
  refine ⟨?_, rfl,
    fun l => ⟨fun valid supported => ?_, fun valid other => ?_, fun invalid => if_pos invalid⟩,
    fun file l => ⟨fun c h => ?_, fun e h => ?_⟩⟩
  · intro file byteAt magic prgSize chrSize banks plain whole
    have header : whole → ¬file.length < 16 := fun h => by
      simp only [whole] at h
      omega
    refine ⟨fun c h => ?_, fun hm hb hp hw => ?_, fun hm hb hp hw => ?_, fun hm hb hp hw => ?_,
      fun hm hb hp hw => ?_, fun hm hb hp hw => ?_⟩
    · obtain ⟨⟨hm, hb, hp, hw⟩, rfl⟩ := loadCartridge_ok_iff.1 h
      exact ⟨hm, hb, hp, hw, cartridgeOf_valid hb, rfl, rfl, headerMapperId_eq file,
        cartridgeOf_mirroring file, cartridgeOf_battery file, cartridgeOf_region file,
        fun _ => read_cartridgeOf_prg file, fun _ => read_cartridgeOf_chr file⟩
    · exact ⟨_, loadCartridge_ok_iff.2 ⟨⟨hm, hb, hp, hw⟩, rfl⟩⟩
    all_goals
      rw [loadCartridge]
      simp only [headerByte_eq_zero_iff, trainer_iff]
    · rw [if_neg (header hw), if_pos hm]
    · rw [if_neg (header hw), if_neg (not_not_intro hm), if_pos (not_not.1 hb)]
    · rw [if_neg (header hw), if_neg (not_not_intro hm), if_neg hb, if_pos hp]
    · by_cases short : file.length < 16
      · exact if_pos short
      · rw [if_neg short, if_neg (not_not_intro hm), if_neg hb, if_neg (not_not_intro hp)]
        exact if_pos (Nat.lt_of_not_le hw)
  · obtain ⟨regs, hr⟩ := ofId_supported supported
    exact ⟨State.powerOn l regs, by simp [startSession, valid, hr]⟩
  · simp [startSession, valid, ofId_unsupported other]
  · rw [startFile, h]
  · rw [startFile, h]

end Sys2Proof.Machine
end

section
/-! PROOF. The decoder and the encoder (R160, R177, R181, R182): every row of the opcode table against the
encoder, the opcodes without a row, and the instructions against the table. -/

namespace Sys2Proof

open Machine

/-- An opcode with a two-byte operand, low byte first (R62, R160), decodes to its row's instruction. -/
theorem decode_f3 {op : Byte} {mk : Word → Instr} {i : Instr} (rest : List Byte) (w : Word)
    (row : formOf op = .f3 mk) (instr : mk w = i) :
    decode ([op, loByte w, hiByte w] ++ rest) = .ok (i, rest) := by
  simp [decode, row, Form.read, mkWord_hiByte_loByte, instr]

/-! ### The opcodes without a row -/

/-- The unrecognized opcodes are those without a row (R182). -/
theorem contains_unrecognizedOpcodes (op : Byte) :
    unrecognizedOpcodes.contains op = (opRow op).isNone := by
  revert op
  decide

theorem mem_unrecognizedOpcodes {op : Byte} : op ∈ unrecognizedOpcodes ↔ opRow op = none := by
  rw [← List.contains_iff_mem, contains_unrecognizedOpcodes, Option.isNone_iff_eq_none]

theorem formOf_unrecognized {op : Byte} (h : op ∈ unrecognizedOpcodes) :
    formOf op = .f1 (.unrecognized op) := by
  rw [formOf, mem_unrecognizedOpcodes.1 h]

/-- Settles O3: the words' opcodes have the rows of R181, and the last one has none. -/
theorem sampleWordsDecode : Obligations.SampleWordsDecode :=
  ⟨rfl, rfl, rfl, rfl, rfl, rfl, rfl, rfl, rfl, rfl, rfl, rfl, rfl, rfl, rfl, rfl, rfl, rfl, rfl, rfl, rfl, rfl⟩

/-- Settles O1: every well-formed instruction encodes as the opcode of the row it stands in. -/
theorem decodeInvertsEncode : Obligations.DecodeInvertsEncode := by
  intro i rest h
  cases i with
  | lda src | adc src | sbc src | cmp src | and src | ora src | eor src =>
    cases src with
    | imm v => rfl
    | mem m =>
      cases m with
      | zp a | zpx a | izx a | izy a => rfl
      | abs a | abx a | aby a => exact decode_f3 rest a rfl rfl
      | zpy a => cases h
  | ldx src =>
    cases src with
    | imm v => rfl
    | mem m =>
      cases m with
      | zp a | zpy a => rfl
      | abs a | aby a => exact decode_f3 rest a rfl rfl
      | zpx a | abx a | izx a | izy a => cases h
  | ldy src =>
    cases src with
    | imm v => rfl
    | mem m =>
      cases m with
      | zp a | zpx a => rfl
      | abs a | abx a => exact decode_f3 rest a rfl rfl
      | zpy a | aby a | izx a | izy a => cases h
  | cpx src | cpy src =>
    cases src with
    | imm v => rfl
    | mem m =>
      cases m with
      | zp a => rfl
      | abs a => exact decode_f3 rest a rfl rfl
      | zpx a | zpy a | abx a | aby a | izx a | izy a => cases h
  | sta dst =>
    cases dst with
    | zp a | zpx a | izx a | izy a => rfl
    | abs a | abx a | aby a => exact decode_f3 rest a rfl rfl
    | zpy a => cases h
  | stx dst =>
    cases dst with
    | zp a | zpy a => rfl
    | abs a => exact decode_f3 rest a rfl rfl
    | zpx a | abx a | aby a | izx a | izy a => cases h
  | sty dst =>
    cases dst with
    | zp a | zpx a => rfl
    | abs a => exact decode_f3 rest a rfl rfl
    | zpy a | abx a | aby a | izx a | izy a => cases h
  | bit src =>
    cases src with
    | zp a => rfl
    | abs a => exact decode_f3 rest a rfl rfl
    | zpx a | zpy a | abx a | aby a | izx a | izy a => cases h
  | inc dst | dec dst =>
    cases dst with
    | zp a | zpx a => rfl
    | abs a | abx a => exact decode_f3 rest a rfl rfl
  | asl dst | lsr dst | rol dst | ror dst =>
    cases dst with
    | acc => rfl
    | mem m =>
      cases m with
      | zp a | zpx a => rfl
      | abs a | abx a => exact decode_f3 rest a rfl rfl
  | bcc off | bcs off | beq off | bne off | bmi off | bpl off | bvc off | bvs off =>
    rfl
  | jmp target =>
    cases target with
    | abs a | ind a => exact decode_f3 rest a rfl rfl
  | jsr a => exact decode_f3 rest a rfl rfl
  | unrecognized op =>
    have bytes : encode (.unrecognized op) = [op] := if_pos h
    rw [bytes]
    exact congrArg (Form.read · rest) (formOf_unrecognized (List.contains_iff_mem.1 h))
  | tax | tay | txa | tya | tsx | txs | pha | php | pla | plp | inx | iny | dex | dey | rts | clc | sec
  | cli | sei | clv | cld | sed | brk | rti | nop => rfl

/-! ### The rows of the table -/

/-- What an instruction costs by its class and mode (R180), without the page-cross penalty and the stall of
the sprite DMA. -/
def Instr.rowCost : Instr → Nat
  | .lda src | .ldx src | .ldy src | .adc src | .sbc src | .cmp src | .cpx src | .cpy src | .and src
  | .ora src | .eor src => readCost src false
  | .bit src => memReadCost src false
  | .sta dst | .stx dst | .sty dst => writeCost dst
  | .inc dst | .dec dst => modifyCost dst
  | .asl dst | .lsr dst | .rol dst | .ror dst => shiftCost dst
  | .jmp target => jumpCost target
  | .brk => 7
  | .jsr _ | .rts | .rti => 6
  | .pla | .plp => 4
  | .pha | .php => 3
  | .unrecognized _ => 1
  | _ => 2

/-- A row of the opcode table agrees with the rest of the model on an instruction it gives with these operand
bytes: the instruction is one of the hardware, the encoder gives it these bytes, the row has its cycles, and
has the page-cross penalty if its operand can cross a page. -/
structure OpRow.Fits (r : OpRow) (i : Instr) (operand : List Byte) : Prop where
  wf : i.wf = true
  bytes : encode i = r.op :: operand
  cycles : r.cycles = i.rowCost
  penalty : ∀ s, (r.penalty && i.operandCrosses s) = i.operandCrosses s

/-- A row agrees with the rest of the model on all its instructions. -/
def OpRow.Sound (r : OpRow) : Prop :=
  match r.form with
  | .f1 i => r.Fits i []
  | .f2 make => ∀ b, r.Fits (make b) [b]
  | .f3 make => ∀ w, r.Fits (make w) [loByte w, hiByte w]

/-- Every row of the table agrees with the rest of the model (R180, R181). -/
theorem opcodeTable_sound : ∀ r ∈ opcodeTable, r.Sound := by
  simp only [opcodeTable, opRows0, opRows4, opRows8, opRowsC, List.cons_append, List.nil_append,
    List.forall_mem_cons, List.not_mem_nil, false_imp_iff, implies_true, and_true, OpRow.Sound]
  and_intros
  all_goals
    intros
    exact ⟨rfl, rfl, rfl, fun _ => rfl⟩

/-- The row of any opcode byte: the table's, or the one of an unrecognized opcode (R177, R182). -/
def rowOf (op : Byte) : OpRow := (opRow op).getD ⟨op, .f1 (.unrecognized op), 1, false⟩

theorem formOf_eq (op : Byte) : formOf op = (rowOf op).form := by
  rw [formOf, rowOf]
  cases opRow op <;> rfl

theorem baseCycles_eq (op : Byte) : baseCycles op = (rowOf op).cycles := by
  rw [baseCycles, rowOf]
  cases opRow op <;> rfl

theorem hasPenalty_eq (op : Byte) : hasPenalty op = (rowOf op).penalty := by
  rw [hasPenalty, rowOf]
  cases opRow op <;> rfl

theorem rowOf_sound (op : Byte) : (rowOf op).op = op ∧ (rowOf op).Sound := by
  rw [rowOf]
  cases h : opRow op with
  | some r =>
    rw [opRow] at h
    exact ⟨by simpa using List.find?_some h, opcodeTable_sound r (List.mem_of_find?_eq_some h)⟩
  | none =>
    have wf : (Instr.unrecognized op).wf = true :=
      List.contains_iff_mem.2 (mem_unrecognizedOpcodes.2 h)
    exact ⟨rfl, wf, if_pos wf, rfl, fun _ => rfl⟩

theorem loByte_mkWord (hi lo : Byte) : loByte (mkWord hi lo) = lo := by
  apply BitVec.eq_of_toNat_eq
  rw [toNat_loByte, toNat_mkWord]
  omega

theorem hiByte_mkWord (hi lo : Byte) : hiByte (mkWord hi lo) = hi := by
  apply BitVec.eq_of_toNat_eq
  rw [toNat_hiByte, toNat_mkWord]
  omega

/-- What is decoded fits the row of its opcode, with the operand bytes read. -/
theorem decode_fits {op : Byte} {bytes rest : List Byte} {i : Instr}
    (h : decode (op :: bytes) = .ok (i, rest)) :
    ∃ operand, bytes = operand ++ rest ∧ (rowOf op).Fits i operand := by
  obtain ⟨-, sound⟩ := rowOf_sound op
  rw [decode, formOf_eq] at h
  rw [OpRow.Sound] at sound
  cases form : (rowOf op).form with
  | f1 j =>
    rw [form] at h sound
    cases h
    exact ⟨[], rfl, sound⟩
  | f2 make =>
    rw [form] at h sound
    obtain _ | ⟨b, _⟩ := bytes <;> cases h
    exact ⟨[b], rfl, sound b⟩
  | f3 make =>
    rw [form] at h sound
    obtain _ | ⟨lo, _ | ⟨hi, _⟩⟩ := bytes <;> cases h
    have fits := sound (mkWord hi lo)
    rw [loByte_mkWord, hiByte_mkWord] at fits
    exact ⟨[lo, hi], rfl, fits⟩

/-- No opcode byte is rejected (R177): two operand bytes are enough for every format. -/
theorem decode_of_three_bytes (op b1 b2 : Byte) (rest : List Byte) :
    ∃ i r, decode (op :: b1 :: b2 :: rest) = .ok (i, r) := by
  rw [decode]
  cases formOf op with
  | f1 i => exact ⟨i, _, rfl⟩
  | f2 make => exact ⟨make b1, _, rfl⟩
  | f3 make => exact ⟨make (mkWord b2 b1), _, rfl⟩

theorem decode_unrecognized {op : Byte} (h : op ∈ unrecognizedOpcodes) (rest : List Byte) :
    decode (op :: rest) = .ok (.unrecognized op, rest) := by
  rw [decode, formOf_unrecognized h, Form.read]

/-- Settles O2: the row of an opcode gives only well-formed instructions with its own bytes. -/
theorem decodingIsTotalAndFaithful : Obligations.DecodingIsTotalAndFaithful := by
  refine ⟨fun bytes i rest h => ?_, rfl, rfl, by decide, fun op b1 b2 rest =>
    ⟨decode_of_three_bytes op b1 b2 rest, mem_unrecognizedOpcodes, fun h => decode_unrecognized h _⟩⟩
  cases bytes with
  | nil => cases h
  | cons op bytes =>
    obtain ⟨operand, rfl, fits⟩ := decode_fits h
    rw [fits.bytes, (rowOf_sound op).1]
    exact ⟨fits.wf, rfl⟩

end Sys2Proof
end

section
/-! PROOF. What an instruction costs (R127, R175, R180, R181). -/

namespace Sys2Proof.Machine

theorem baseCycles_pos (op : Byte) : 0 < baseCycles op := by
  revert op
  decide

/-- The stall an instruction adds to the pending-cycle counter (R127): its store's, if it has one. -/
def stallOf (i : Instr) (s : State) : Nat :=
  match i.storeOperand with
  | some d => storeStall s (resolve d s).ea
  | none => 0

theorem readCost_crossed (src : Src) (s : State) :
    readCost src (readSrc src s).crossed = readCost src false + bitNat (readSrc src s).crossed := by
  cases src with
  | imm v => rfl
  | mem m => rfl

theorem storeMem_pending (m : Addr) (value : State → Byte) (s : State) :
    (storeMem m value s).cpu.pending = s.cpu.pending + storeStall s (resolve m s).ea := by
  have k := resolve_keeps m s
  rw [storeMem, busWrite_cpu, storeStall, storeStall, k.pending, k.params]

theorem modifyMem_pending (m : RmwAddr) (op : Flags → Byte → AluResult) (s : State) :
    (modifyMem m op s).cpu.pending = s.cpu.pending + storeStall s (resolve m.toAddr s).ea := by
  have k := (resolve_keeps m.toAddr s).trans (busRead_keeps _ (resolve m.toAddr s).ea)
  rw [modifyMem, State.setP_pending, busWrite_cpu, storeStall, storeStall, k.pending, k.params]

theorem charge_pending (s : State) (cost : Nat) :
    (charge s cost).cpu.pending = s.cpu.pending + (cost - 1) := rfl

theorem pushWord_pending (s : State) (w : Word) : (pushWord s w).cpu.pending = s.cpu.pending := by
  simp only [pushWord, push_cpu]

theorem takeInterrupt_pending (k : InterruptKind) (s : State) :
    (takeInterrupt k s).cpu.pending = s.cpu.pending := by
  simp only [takeInterrupt_eq, State.setPc_pending, State.setP_pending, push_cpu]

theorem pending_of_exec_eq {i : Instr} {s t u : State} (hu : exec i s = .next u)
    (ht : exec i s = .next t) : t.cpu.pending = u.cpu.pending := by
  rw [hu, Host.Outcome.next.injEq] at ht
  rw [ht]

/-- What an instruction that completes has added to the pending-cycle counter, class by class (R180): the
stall of its store and its cost less the one cycle it has used. -/
theorem exec_pending {i : Instr} {s t : State} (wf : i.wf = true) (notBranch : i.isBranch = false)
    (ht : exec i s = .next t) :
    t.cpu.pending =
      s.cpu.pending + stallOf i s + (i.rowCost + bitNat (i.operandCrosses s) - 1) := by
  cases i with
  | lda src | ldx src | ldy src | adc src | sbc src | cmp src | cpx src | cpy src | and src | ora src
  | eor src =>
    cases ht
    exact congrArg₂ (fun n c => n + (c - 1)) (readSrc_keeps src s).pending (readCost_crossed src s)
  | bit src =>
    cases ht
    cases src with
    | zp a => exact congrArg (· + 2) (readMem_keeps (.zp a) s).pending
    | abs a => exact congrArg (· + 3) (readMem_keeps (.abs a) s).pending
    | zpx a | zpy a | abx a | aby a | izx a | izy a => cases wf
  | jmp target =>
    cases ht
    exact congrArg (· + (jumpCost target - 1)) (jumpTarget_keeps target s).pending
  | sta dst | stx dst | sty dst =>
    cases ht
    exact congrArg (· + (writeCost dst - 1)) (storeMem_pending dst _ s)
  | inc dst | dec dst =>
    cases ht
    exact congrArg (· + (modifyCost dst - 1)) (modifyMem_pending dst _ s)
  | asl dst | lsr dst | rol dst | ror dst =>
    cases ht
    cases dst with
    | acc => rfl
    | mem m => exact congrArg (· + (modifyCost m - 1)) (modifyMem_pending m _ s)
  | bcc off | bcs off | beq off | bne off | bmi off | bpl off | bvc off | bvs off => cases notBranch
  | pha =>
    rw [pending_of_exec_eq (exec_pha s) ht, charge_pending, push_cpu]
    rfl
  | php =>
    rw [pending_of_exec_eq (exec_php s) ht, charge_pending, push_cpu]
    rfl
  | jsr target =>
    rw [pending_of_exec_eq (exec_jsr target s) ht, charge_pending, State.setPc_pending, pushWord_pending]
    rfl
  | brk =>
    rw [pending_of_exec_eq (exec_brk s) ht, charge_pending, takeInterrupt_pending]
    rfl
  | pla =>
    rw [pending_of_exec_eq (exec_pla s) ht, charge_pending, pull_state]
    rfl
  | plp =>
    rw [pending_of_exec_eq (exec_plp s) ht, charge_pending, pullFlags_eq]
    rfl
  | rts =>
    rw [pending_of_exec_eq (exec_rts s) ht, charge_pending, pullWord_eq]
    rfl
  | rti =>
    rw [pending_of_exec_eq (exec_rti s) ht, charge_pending, returnFromInterrupt_eq]
    rfl
  | tax | tay | txa | tya | tsx | txs | inx | iny | dex | dey | clc | sec | cli | sei | clv | cld | sed
  | nop | unrecognized =>
    cases ht
    rfl

/-- Settles O25: the decoded instruction fits its opcode's row, whose cycles are its cost. -/
theorem everyInstructionCostsItsRow : Obligations.EveryInstructionCostsItsRow := by
  intro op bytes rest i s t hd notBranch ht stall
  obtain ⟨operand, -, fits⟩ := decode_fits hd
  have hs : stall = stallOf i s := rfl
  have pending := exec_pending fits.wf notBranch ht
  have pos := baseCycles_pos op
  rw [baseCycles_eq, fits.cycles] at pos
  rw [hs, baseCycles_eq, hasPenalty_eq, fits.cycles, fits.penalty]
  simp only [bitNat] at pending
  omega

end Sys2Proof.Machine
end

section
/-! PROOF. The addressing modes as arithmetic (R163 to R171, R174). -/

namespace Sys2Proof.Machine

theorem zeroPage_eq {z : Byte} {n : Nat} (h : z.toNat = n % 256) :
    zeroPage z = BitVec.ofNat 16 (n % 256) := by
  rw [← h]
  exact BitVec.eq_of_toNat_eq (by simp [zeroPage])

/-- Page zero has no read effect (R65). -/
theorem busRead_zeroPage_state (s : State) (z : Byte) : (busRead s (zeroPage z)).state = s :=
  busRead_state_of_plainMemory (by rw [plainMemory, windowOf_zeroPage])

/-- The pointer at `n` in page zero (R170, R171): both its bytes wrap inside the page. -/
theorem zeroPagePointer_eq (s : State) {z : Byte} {n : Nat} (h : z.toNat = n % 256) :
    zeroPagePointer s z =
      { value :=
          BitVec.ofNat 16
            ((busRead s (BitVec.ofNat 16 ((n + 1) % 256))).value.toNat * 256 +
              (busRead s (BitVec.ofNat 16 (n % 256))).value.toNat)
        state := s } := by
  have next : (z + 1).toNat = (n + 1) % 256 := by
    rw [BitVec.toNat_add, h]
    exact Nat.mod_add_mod ..
  simp only [zeroPagePointer, readPair, busRead_zeroPage_state, ← zeroPage_eq h, ← zeroPage_eq next]
  congr 1
  rw [← toNat_mkWord, BitVec.ofNat_toNat, BitVec.setWidth_eq]

/-- A base and an index (R168, R169, R171): the sum wraps at 65536, and is in another page if its high byte
is another. -/
theorem indexed_eq (base : Word) (index : Byte) (s : State) :
    indexed base index s =
      { ea := BitVec.ofNat 16 (base.toNat + index.toNat)
        crossed := decide ((base.toNat + index.toNat) % 65536 / 256 ≠ base.toNat / 256)
        state := s } := by
  have sum : base + index.setWidth 16 = BitVec.ofNat 16 (base.toNat + index.toNat) := by
    apply BitVec.eq_of_toNat_eq
    simp [BitVec.toNat_add]
  rw [indexed, sum, crossesPage_eq, BitVec.toNat_ofNat]

/-- Resolving an operand has no effect: the modes read pointers in page zero only. -/
theorem resolve_state (m : Addr) (s : State) : (resolve m s).state = s := by
  cases m with
  | izx a | izy a => simp only [resolve, indexed_state, zeroPagePointer, readPair, busRead_zeroPage_state]
  | _ => rfl

/-- Settles O24: the modes one by one. -/
theorem addressingModes : Obligations.AddressingModes := by
  intro s a w page0 ptr plus
  have byte : a.toNat = a.toNat % 256 := (Nat.mod_eq_of_lt a.isLt).symm
  refine ⟨?_, ?_, ?_, rfl, indexed_eq .., indexed_eq .., ?_, ?_, rfl, fun m => ?_⟩
  · rw [resolve, zeroPage_eq byte]
  · rw [resolve, zeroPage_eq (BitVec.toNat_add ..)]
  · rw [resolve, zeroPage_eq (BitVec.toNat_add ..)]
  · simp only [resolve, zeroPagePointer_eq s (BitVec.toNat_add ..)]; rfl
  · simp only [resolve, zeroPagePointer_eq s byte, indexed_eq]; rfl
  · rw [readSrc, readMem, resolve_state]

end Sys2Proof.Machine
end

section
/-! PROOF. Loads and stores (R220 to R226): the two classes, then the instructions with their encodings. -/

namespace Sys2Proof.Machine

/-- An instruction of the read class, from the processor it leaves on the state after the operand's reads. -/
theorem ReadEffect.ofExec {mk : Src → Instr} {after : Cpu → Byte → Cpu}
    (run : ∀ src s,
      let o := readSrc src s
      exec (mk src) s =
        .next
          { o.state with
            cpu :=
              { after o.state.cpu o.value with
                irq := o.state.cpu.irq
                pending := o.state.cpu.pending + (readCost src o.crossed - 1) } })
    (irq : ∀ c i m, { after { c with irq := i } m with irq := i } = { after c m with irq := i }) :
    ReadEffect mk after :=
  .of (fun src s => ⟨_, run src s, .ofCpu _ _, rfl⟩) irq

/-- A store is one write of the bus, for resolving its operand has no effect (R174). -/
theorem storeMem_eq (m : Addr) (value : State → Byte) (s : State) :
    storeMem m value s = busWrite s (resolve m s).ea (value s) := by
  rw [storeMem, resolve_state]

/-- An instruction of the write class: the bus write gives the interrupt sources and the stall (R127), the
charge gives the cost, and no register is written (R220). -/
theorem StoreClassEffect.ofExec {mk : Addr → Instr} {value : Cpu → Byte}
    (run : ∀ dst s, exec (mk dst) s = storeWith (fun s => value s.cpu) dst s) :
    StoreClassEffect mk value := by
  intro dst s e v
  have same : e.state = s := resolve_state dst s
  have stored : storeMem dst (fun s => value s.cpu) s = busWrite e.state e.ea v := by
    rw [same]
    exact storeMem_eq ..
  refine ⟨_, run dst s, .of (resolve_keeps dst s) ?_ ?_⟩
  · rw [stored, same, charge, State.setPending, busWrite_cpu]
  · rw [stored]
    exact .ofCpu _ _

/-- Settles O10: a load leaves its operand in the register, and Z and N of it. -/
theorem loadsFillTheRegister : Obligations.LoadsFillTheRegister := by
  refine ⟨⟨⟨rfl, rfl, rfl, rfl, rfl, rfl, rfl, rfl⟩, ?lda⟩, ⟨⟨rfl, rfl, rfl, rfl, rfl⟩, ?ldx⟩,
    ⟨rfl, rfl, rfl, rfl, rfl⟩, ?ldy⟩ <;> simp only [withZN_eq]
  case lda => exact .ofExec (fun _ _ => rfl) fun _ _ _ => rfl
  case ldx => exact .ofExec (fun _ _ => rfl) fun _ _ _ => rfl
  case ldy => exact .ofExec (fun _ _ => rfl) fun _ _ _ => rfl

/-- Settles O11: each store is `storeWith` of its register. -/
theorem storesWriteTheByte : Obligations.StoresWriteTheByte :=
  ⟨⟨⟨rfl, rfl, rfl, rfl, rfl, rfl, rfl⟩, .ofExec fun _ _ => rfl⟩,
    ⟨⟨rfl, rfl, rfl⟩, .ofExec fun _ _ => rfl⟩, ⟨rfl, rfl, rfl⟩, .ofExec fun _ _ => rfl⟩

end Sys2Proof.Machine
end

section
/-! PROOF. Register transfers and the stack (R230 to R239): an instruction of one byte, a push and a pull, then
the instructions with their encodings. -/

namespace Sys2Proof.Machine

/-- An instruction of one byte that answers a change of the processor's registers alone. -/
theorem ImpliedEffect.ofExec {op : Byte} {i : Instr} {n : Nat} {after : Cpu → Cpu} (encoding : OneByte op i n)
    (run : ∀ s, exec i s =
      .next { s with cpu := { after s.cpu with pending := s.cpu.pending + (n - 1) } }) :
    ImpliedEffect op i n after :=
  .of encoding fun s => ⟨_, run s, .ofCpu _ _, rfl⟩

/-- A push with its cost is a store to the stack slot, which lies in work RAM (R23). -/
theorem storeEffect_push (s : State) (v : Byte) (cost : Nat) :
    StoreEffect s s (charge (push s v) cost) (stackAddr s.cpu.sp) v
      { s.cpu with sp := s.cpu.sp - 1, pending := s.cpu.pending + (cost - 1) } := by
  refine .of (.refl s) ?cpu (.ofCpu _ _)
  rw [charge, State.setPending, push_cpu]

/-- The poll as R408 says it, of the asserted sources and the flag I. -/
theorem poll_eq (c : Cpu) :
    poll c =
      if c.nmi then .nmi else if c.irq.any = true ∧ c.p.i = false then .irq else .instruction := by
  simp only [poll, Bool.and_eq_true, Bool.not_eq_true']

/-- PLA moves SP up and takes the byte there, with Z and N of it (R238). -/
theorem exec_pla_eq (s : State) :
    let v := (busRead s (stackAddr (s.cpu.sp + 1))).value
    exec .pla s =
      .next
        { s with
          cpu :=
            { s.cpu with
              a := v, sp := s.cpu.sp + 1, p := s.cpu.p.withZN v, pending := s.cpu.pending + 3 } } := by
  intro v
  rw [exec_pla, pull_state, pull_value, withZN_eq]
  rfl

/-- PLP moves SP up and takes the six flags from the byte there (R239). -/
theorem exec_plp_eq (s : State) :
    exec .plp s =
      .next
        { s with
          cpu :=
            { s.cpu with
              sp := s.cpu.sp + 1
              p := Flags.pulled (busRead s (stackAddr (s.cpu.sp + 1))).value
              pending := s.cpu.pending + 3 } } := by
  rw [exec_plp, pullFlags_eq]
  rfl

/-- Settles O12: each transfer writes registers and flags only, Z and N by `SetZN` (R27). -/
theorem transfersMoveARegister : Obligations.TransfersMoveARegister := by
  refine ⟨?tax, ?tay, ?txa, ?tya, ?tsx, ?txs⟩
  case txs => exact .ofExec rfl fun _ => rfl
  all_goals
    simp only [withZN_eq]
    exact .ofExec rfl fun _ => rfl

/-- Settles O13: a push is a store to the stack slot, a pull changes registers and flags only, and the next
poll reads the flags PLP pulled. -/
theorem pushesAndPulls : Obligations.PushesAndPulls := by
  refine ⟨⟨rfl, fun s => ?pha⟩, ⟨rfl, fun s => ?php⟩, ⟨rfl, fun s => ?pla⟩, rfl, fun s => ?plp⟩
  case pha => exact ⟨_, exec_pha s, storeEffect_push s _ 3⟩
  case php => exact ⟨_, exec_php s, storeEffect_push s _ 3⟩
  case pla => exact ⟨_, exec_pla_eq s, .of (.refl s) rfl (.ofCpu s _)⟩
  case plp => exact ⟨_, exec_plp_eq s, .of (.refl s) rfl (.ofCpu s _), poll_eq _⟩

end Sys2Proof.Machine
end

section
/-! PROOF. Add, subtract and compare (R250 to R256): the results and flags as arithmetic, the two classes, then
the instructions with their encodings. -/

namespace Sys2Proof.Machine

/-- ADC's result and flags (R250), with V as signed overflow (R255). -/
theorem addCarry_eq (p : Flags) (a m : Byte) :
    addCarry p a m =
      let carry := if p.c then 1 else 0
      let sum := a.toNat + m.toNat + carry
      let signed : Int := a.toInt + m.toInt + carry
      let r := BitVec.ofNat 8 sum
      { value := r
        flags :=
          Flags.withZN
            { p with c := decide (255 < sum), v := decide (signed < -128 ∨ 127 < signed) } r } := by
  have le : bitNat p.c ≤ 1 := by rw [bitNat]; split <;> omega
  simp only [addCarry, withZN_eq, overflow_add a m _ le]
  rfl

/-- The carry out of the sum with the complement is the absence of a borrow (R251). -/
theorem carry_complement (a m : Byte) (c : Bool) :
    decide (255 < a.toNat + (m ^^^ 0xFF#8).toNat + if c then 1 else 0) =
      decide ((m.toNat : Int) + (if c then 0 else 1) ≤ a.toNat) := by
  have := m.isLt
  rw [toNat_complement, decide_eq_decide]
  cases c <;> simp only [Bool.false_eq_true, if_true, if_false] <;> omega

/-- The signed sum with the complement is the signed difference less the borrow (R251). -/
theorem signed_complement (a m : Byte) (c : Bool) :
    a.toInt + (m ^^^ 0xFF#8).toInt + (if c then 1 else 0 : Nat) =
      a.toInt - m.toInt - (if c then 0 else 1) := by
  rw [toInt_complement]
  cases c <;> simp only [Bool.false_eq_true, if_true, if_false] <;> omega

/-- SBC's result and flags (R251) are those of the difference less the borrow. -/
theorem subBorrow_eq (p : Flags) (a m : Byte) :
    subBorrow p a m =
      let borrow : Int := if p.c then 0 else 1
      let signed : Int := a.toInt - m.toInt - borrow
      let r := BitVec.ofInt 8 (a.toNat - m.toNat - borrow)
      { value := r
        flags :=
          Flags.withZN
            { p with
              c := decide (m.toNat + borrow ≤ a.toNat)
              v := decide (signed < -128 ∨ 127 < signed) }
            r } := by
  have result := difference_eq a m p.c
  push_cast [bitNat] at result
  simp only [subBorrow, addCarry_eq, result, carry_complement, signed_complement]

/-- The flags of a compare (R256), N of the difference modulo 256. -/
theorem compareFlags_eq (p : Flags) (r m : Byte) :
    compareFlags p r m =
      { p with
        c := decide (m.toNat ≤ r.toNat)
        z := decide (r.toNat = m.toNat)
        n := decide (128 ≤ (r.toNat + 256 - m.toNat) % 256) } := by
  have zero : (r == m) = decide (r.toNat = m.toNat) := by
    simp only [BitVec.toNat_inj]
    rfl
  have difference : (r - m).toNat = (r.toNat + 256 - m.toNat) % 256 := by
    have := m.isLt
    rw [BitVec.toNat_sub]
    omega
  rw [compareFlags, zero, bitOf_seven, difference]

/-- An operation of the accumulator and an operand gives the accumulator and the flags (R250, R251). -/
theorem ReadEffect.ofArith {mk : Src → Instr} {op : Flags → Byte → Byte → AluResult}
    (run : ∀ src s, exec (mk src) s = arithWith op src s) :
    ReadEffect mk fun c m => { c with a := (op c.p c.a m).value, p := (op c.p c.a m).flags } :=
  .ofExec run fun _ _ _ => rfl

/-- A compare of a register with an operand gives the flags alone (R252 to R254). -/
theorem ReadEffect.ofCompare {mk : Src → Instr} {get : Cpu → Byte}
    (run : ∀ src s, exec (mk src) s = compareWith (fun s => get s.cpu) src s)
    (irq : ∀ c i, get { c with irq := i } = get c) :
    ReadEffect mk fun c m => { c with p := compareFlags c.p (get c) m } :=
  .ofExec run fun _ _ _ => by simp only [irq]

/-- Settles O14: ADC is `arithWith` of the sum, SBC of the difference. -/
theorem addAndSubtract : Obligations.AddAndSubtract := by
  refine ⟨⟨⟨rfl, rfl, rfl, rfl, rfl, rfl, rfl, rfl⟩, ?adc⟩,
    ⟨rfl, rfl, rfl, rfl, rfl, rfl, rfl, rfl⟩, ?sbc⟩
  case adc => simpa only [addCarry_eq] using ReadEffect.ofArith (op := addCarry) fun _ _ => rfl
  case sbc => simpa only [subBorrow_eq] using ReadEffect.ofArith (op := subBorrow) fun _ _ => rfl

/-- Settles O15: each compare is `compareWith` of its register. -/
theorem comparesSetFlags : Obligations.ComparesSetFlags := by
  refine ⟨⟨⟨rfl, rfl, rfl, rfl, rfl, rfl, rfl, rfl⟩, ?cmp⟩, ⟨⟨rfl, rfl, rfl⟩, ?cpx⟩,
    ⟨rfl, rfl, rfl⟩, ?cpy⟩ <;> simp only [← compareFlags_eq]
  case cmp => exact .ofCompare (fun _ _ => rfl) fun _ _ => rfl
  case cpx => exact .ofCompare (fun _ _ => rfl) fun _ _ => rfl
  case cpy => exact .ofCompare (fun _ _ => rfl) fun _ _ => rfl

end Sys2Proof.Machine
end

section
/-! PROOF. Increments and decrements (R265 to R270): the read-modify-write class, then the instructions with
their encodings. -/

namespace Sys2Proof.Machine

/-- An instruction of the read-modify-write class, from its operation as arithmetic (R174): one read and one
write of the bus at the address resolved once, then the flags and the cost. -/
theorem ModifyEffect.ofExec {mk : RmwAddr → Instr} {op : Flags → Byte → AluResult}
    {result : Flags → Nat → Nat} {flags : Flags → Nat → Byte → Flags}
    (run : ∀ dst s, exec (mk dst) s = .next (charge (modifyMem dst op s) (modifyCost dst)))
    (arith : ∀ p m,
      let v := BitVec.ofNat 8 (result p m.toNat)
      op p m = { value := v, flags := flags p m.toNat v }) :
    ModifyEffect mk result flags := by
  intro dst s e r v
  have k : ReadKeeps s r.state := (resolve_keeps dst.toAddr s).trans (busRead_keeps e.state e.ea)
  have operated : op r.state.cpu.p r.value = { value := v, flags := flags s.cpu.p r.value.toNat v } := by
    rw [arith, k.p]
  have modified :
      modifyMem dst op s = (busWrite r.state e.ea v).setP (flags s.cpu.p r.value.toNat v) :=
    congrArg (fun o : AluResult => (busWrite r.state e.ea o.value).setP o.flags) operated
  have stall : storeStall r.state e.ea = storeStall s e.ea := by rw [storeStall, storeStall, k.params]
  refine ⟨_, run dst s, .of k ?cpu ?outside⟩ <;> rw [modified]
  case cpu => rw [charge, State.setPending, State.setP, busWrite_cpu, k.cpu_eq, stall]
  case outside => exact .ofCpu _ _

/-- INC's result (R265) is the sum modulo 256. -/
theorem increment_eq (p : Flags) (m : Byte) :
    let v := BitVec.ofNat 8 ((m.toNat + 1) % 256)
    increment p m = { value := v, flags := p.withZN v } := by
  have sum : m + 1 = BitVec.ofNat 8 ((m.toNat + 1) % 256) :=
    BitVec.eq_of_toNat_eq (by simp [BitVec.toNat_add])
  simp only [increment, withZN_eq, sum]

/-- DEC's result (R268) is the sum with 255 modulo 256, so 0x00 becomes 0xFF. -/
theorem decrement_eq (p : Flags) (m : Byte) :
    let v := BitVec.ofNat 8 ((m.toNat + 255) % 256)
    decrement p m = { value := v, flags := p.withZN v } := by
  have difference : m - 1 = BitVec.ofNat 8 ((m.toNat + 255) % 256) :=
    BitVec.eq_of_toNat_eq (by simp [BitVec.toNat_sub, Nat.add_comm])
  simp only [decrement, withZN_eq, difference]

/-- Settles O16: INC and DEC are `modifyMem` of a step by one, the others write a register and flags only. -/
theorem incrementsAndDecrements : Obligations.IncrementsAndDecrements := by
  refine ⟨⟨⟨rfl, rfl, rfl, rfl⟩, .ofExec (fun _ _ => rfl) increment_eq⟩,
    ⟨⟨rfl, rfl, rfl, rfl⟩, .ofExec (fun _ _ => rfl) decrement_eq⟩, ?inx, ?iny, ?dex, ?dey⟩
  all_goals
    simp only [withZN_eq]
    exact .ofExec rfl fun _ => rfl

end Sys2Proof.Machine
end

section
/-! PROOF. Logical operations (R280 to R283): the accumulator's class, BIT's flags as arithmetic, then the
instructions with their encodings. -/

namespace Sys2Proof.Machine

/-- A logical operation leaves its result in the accumulator, and Z and N of it (R280 to R282). -/
theorem ReadEffect.ofLogic {mk : Src → Instr} {op : Byte → Byte → Byte}
    (run : ∀ src s, exec (mk src) s = logicWith op src s) :
    ReadEffect mk fun c m => { c with a := op c.a m, p := c.p.withZN (op c.a m) } := by
  simp only [withZN_eq]
  exact .ofExec run fun _ _ _ => rfl

/-- BIT's flags (R283): Z of the conjunction, N and V of the operand's own bits 7 and 6. -/
theorem bitFlags_eq (p : Flags) (a m : Byte) :
    bitFlags p a m =
      { p with
        z := decide ((a &&& m).toNat = 0)
        n := decide (128 ≤ m.toNat)
        v := decide (64 ≤ m.toNat % 128) } := by
  have zero : ((a &&& m) == 0) = decide ((a &&& m).toNat = 0) :=
    (congrArg Flags.z (withZN_eq p (a &&& m))).symm
  rw [bitFlags, zero, bitOf_seven, bitOf_six]

/-- BIT writes flags only, from the accumulator and flags its operand's reads keep (R65, R283). -/
theorem exec_bit_effect (src : Addr) (s : State) :
    let o := readMem src s
    ∃ t, exec (.bit src) s = .next t ∧
      RegisterEffect s o.state t
        { s.cpu with
          p := bitFlags s.cpu.p s.cpu.a o.value
          irq := o.state.cpu.irq
          pending := s.cpu.pending + (memReadCost src o.crossed - 1) } := by
  have k := readMem_keeps src s
  refine ⟨_, rfl, .of k ?cpu (.ofCpu _ _)⟩
  rw [charge, State.setPending, State.setP, k.cpu_eq]

/-- Settles O17: AND, ORA and EOR are `logicWith` of their operation, BIT writes `bitFlags` alone. -/
theorem logicalOperations : Obligations.LogicalOperations := by
  refine ⟨⟨⟨rfl, rfl, rfl, rfl, rfl, rfl, rfl, rfl⟩, .ofLogic fun _ _ => rfl⟩,
    ⟨⟨rfl, rfl, rfl, rfl, rfl, rfl, rfl, rfl⟩, .ofLogic fun _ _ => rfl⟩,
    ⟨⟨rfl, rfl, rfl, rfl, rfl, rfl, rfl, rfl⟩, .ofLogic fun _ _ => rfl⟩, ⟨rfl, rfl⟩, ?bit⟩
  simpa only [bitFlags_eq] using exec_bit_effect

end Sys2Proof.Machine
end

section
/-! PROOF. Shifts and rotates (R290 to R293): the class with its accumulator form, the results as arithmetic,
then the instructions with their encodings. -/

namespace Sys2Proof.Machine

/-- A shift or rotate, from its operation as arithmetic: of the accumulator it writes A and the flags alone
(R162), of memory it is of the read-modify-write class. -/
theorem ShiftEffect.ofExec {acc : Byte} {mk : ShiftDst → Instr} {op : Flags → Byte → AluResult}
    {result : Flags → Nat → Nat} {carry : Nat → Bool} (encoding : OneByte acc (mk .acc) 2)
    (run : ∀ dst s, exec (mk dst) s = .next (charge (modifyShift dst op s) (shiftCost dst)))
    (arith : ∀ p m,
      let v := BitVec.ofNat 8 (result p m.toNat)
      op p m = { value := v, flags := Flags.withZN { p with c := carry m.toNat } v }) :
    ShiftEffect acc mk result carry := by
  refine ⟨.ofExec encoding fun s => ?acc, .ofExec (fun m s => run (.mem m) s) arith⟩
  rw [run, modifyShift, arith]
  rfl

/-- The shift left drops bit 7 (R290). -/
theorem shiftLeft_one_eq (m : Byte) : m <<< 1 = BitVec.ofNat 8 (2 * m.toNat % 256) :=
  BitVec.eq_of_toNat_eq (by simp [Nat.shiftLeft_eq, Nat.mul_comm])

/-- The shift right drops bit 0 (R291). -/
theorem shiftRight_one_eq (m : Byte) : m >>> 1 = BitVec.ofNat 8 (m.toNat / 2) := by
  have lt : m.toNat / 2 < 256 := (Nat.div_le_self ..).trans_lt m.isLt
  exact BitVec.eq_of_toNat_eq (by simp [Nat.shiftRight_eq_div_pow, Nat.mod_eq_of_lt lt])

/-- A shift left leaves bit 0 free, so the carry that enters there adds 1 (R292). -/
theorem shiftLeft_or_carry_eq (m : Byte) (c : Bool) :
    m <<< 1 ||| bitVec 8 c = BitVec.ofNat 8 (2 * m.toNat % 256 + if c then 1 else 0) := by
  have disjoint : m <<< 1 &&& bitVec 8 c = 0 := by revert m c; decide
  have entering : bitVec 8 c = BitVec.ofNat 8 (if c then 1 else 0) := by cases c <;> rfl
  rw [← BitVec.add_eq_or_of_and_eq_zero _ _ disjoint, shiftLeft_one_eq, entering, BitVec.ofNat_add]

/-- A shift right leaves bit 7 free, so the carry that enters there adds 128 (R293). -/
theorem shiftRight_or_carry_eq (m : Byte) (c : Bool) :
    m >>> 1 ||| bitVec 8 c <<< 7 = BitVec.ofNat 8 (m.toNat / 2 + 128 * if c then 1 else 0) := by
  have disjoint : m >>> 1 &&& bitVec 8 c <<< 7 = 0 := by revert m c; decide
  have entering : bitVec 8 c <<< 7 = BitVec.ofNat 8 (128 * if c then 1 else 0) := by cases c <;> rfl
  rw [← BitVec.add_eq_or_of_and_eq_zero _ _ disjoint, shiftRight_one_eq, entering, BitVec.ofNat_add]

/-- Settles O18: each is `modifyShift` of its operation, whose result and carry out are arithmetic. -/
theorem shiftsAndRotates : Obligations.ShiftsAndRotates := by
  refine ⟨⟨⟨rfl, rfl, rfl, rfl⟩, .ofExec rfl (fun _ _ => rfl) fun p m => ?asl⟩,
    ⟨⟨rfl, rfl, rfl, rfl⟩, .ofExec rfl (fun _ _ => rfl) fun p m => ?lsr⟩,
    ⟨⟨rfl, rfl, rfl, rfl⟩, .ofExec rfl (fun _ _ => rfl) fun p m => ?rol⟩,
    ⟨rfl, rfl, rfl, rfl⟩, .ofExec rfl (fun _ _ => rfl) fun p m => ?ror⟩
  case asl => simp only [shiftLeft, withZN_eq, bitOf_seven, shiftLeft_one_eq]
  case lsr => simp only [shiftRight, withZN_eq, bitOf_zero, shiftRight_one_eq]
  case rol => simp only [rotateLeft, withZN_eq, bitOf_seven, shiftLeft_or_carry_eq]
  case ror => simp only [rotateRight, withZN_eq, bitOf_zero, shiftRight_or_carry_eq]

end Sys2Proof.Machine
end

section
/-! PROOF. Conditional branches (R300 to R308): what `branchIf` answers and costs, then the eight instructions
with their encodings. -/

namespace Sys2Proof.Machine

/-- A branch changes PC, if it is taken, and charges its cost (R300). -/
theorem branchIf_eq (taken : Bool) (off : Byte) (s : State) :
    branchIf taken off s =
      .next
        { s with
          cpu :=
            { s.cpu with
              pc := if taken then branchTarget s.cpu.pc off else s.cpu.pc
              pending := s.cpu.pending + (branchCost taken s.cpu.pc off - 1) } } := by
  cases taken <;> rfl

/-- The three costs of R300: not taken, taken to the same page, taken to another page. -/
theorem branchCost_eq (taken : Bool) (pc : Word) (off : Byte) :
    branchCost taken pc off =
      if taken then if (branchTarget pc off).toNat / 256 = pc.toNat / 256 then 3 else 4 else 2 := by
  cases taken with
  | false => rfl
  | true =>
    by_cases samePage : (branchTarget pc off).toNat / 256 = pc.toNat / 256 <;>
      simp [branchCost, crossesPage_eq, bitNat, samePage]

/-- A branch, from its condition on the flags. -/
theorem BranchEffect.ofExec {op : Byte} {mk : Byte → Instr} {cond : Flags → Bool}
    (encoding : opRow op = some ⟨op, .f2 mk, 2, false⟩)
    (run : ∀ off s, exec (mk off) s = branchIf (cond s.cpu.p) off s) : BranchEffect op mk cond := by
  refine ⟨encoding, fun off s => ⟨_, (run off s).trans (branchIf_eq ..), .of (.refl s) ?cpu (.ofCpu _ _)⟩⟩
  rw [branchCost_eq, branchTarget_eq]

/-- Settles O19: each branch is `branchIf` of its flag. -/
theorem branchesTestOneFlag : Obligations.BranchesTestOneFlag := by
  refine ⟨?bcc, ?bcs, ?beq, ?bne, ?bmi, ?bpl, ?bvc, ?bvs⟩
  all_goals exact .ofExec rfl fun _ _ => rfl

end Sys2Proof.Machine
end

section
/-! PROOF. A dot of the Video Engine (R463 to R471): its work writes the current address and the two status
flags, and the move to the next dot writes the position, the selected sprites and the odd-frame flag. -/

namespace Sys2Proof.Machine

/-- The work of a dot writes of the Video Engine only the current address and the two status flags. -/
theorem dotWork_video (s : State) :
    (dotWork s).video =
      { s.video with
        v := (dotWork s).video.v
        vblank := (dotWork s).video.vblank
        sprite0Hit := (dotWork s).video.sprite0Hit } := by
  unfold dotWork
  split
  · unfold preRenderDot
    dsimp only
    split_ifs <;> rfl
  · unfold renderDot visibleDot
    dsimp only
    split_ifs <;> rfl
  · rfl
  · unfold verticalBlankDot
    dsimp only
    split_ifs <;> rfl

/-- The end of a scanline writes the selected sprites and the odd-frame flag (R464, R467, R470). -/
theorem lineEndWork_eq (d : Video) :
    lineEndWork d =
      { d with lineSprites := (lineEndWork d).lineSprites, oddFrame := (lineEndWork d).oddFrame } := by
  unfold lineEndWork
  split
  case h_4 => split <;> rfl
  all_goals rfl

/-- The end of a scanline does not look at the current address or the status flags. -/
theorem lineEndWork_status (d : Video) (v : BitVec 15) (vblank hit : Bool) :
    lineEndWork { d with v := v, vblank := vblank, sprite0Hit := hit } =
      { lineEndWork d with v := v, vblank := vblank, sprite0Hit := hit } := by
  unfold lineEndWork
  dsimp only
  split
  case h_4 => split <;> rfl
  all_goals rfl

/-- The Video Engine moved to the next dot (R463): the position, and at the end of a scanline its work. -/
def Video.advanced (d : Video) : Video :=
  if lineLength d ≤ d.dot + 1 then
    { lineEndWork d with
      dot := 0, scanline := nextScanline d.scanline, stage := stageOf (nextScanline d.scanline) }
  else { d with dot := d.dot + 1 }

theorem advanceDot_video (s : State) : (advanceDot s).video = s.video.advanced := by
  have scanline : (lineEndWork s.video).scanline = s.video.scanline := by rw [lineEndWork_eq]
  unfold advanceDot Video.advanced endLine
  split
  · simp only [State.setOut_video, State.setVideo_video, scanline]
  · rfl

theorem Video.advanced_middle {d : Video} (h : d.dot + 1 < lineLength d) :
    d.advanced = { d with dot := d.dot + 1 } := if_neg (Nat.not_le.2 h)

theorem Video.advanced_last {d : Video} (h : lineLength d ≤ d.dot + 1) :
    d.advanced =
      { lineEndWork d with
        dot := 0, scanline := nextScanline d.scanline, stage := stageOf (nextScanline d.scanline) } :=
  if_pos h

/-- The move to the next dot does not look at the current address or the status flags. -/
theorem Video.advanced_status (d : Video) (v : BitVec 15) (vblank hit : Bool) :
    { d with v := v, vblank := vblank, sprite0Hit := hit }.advanced =
      { d.advanced with v := v, vblank := vblank, sprite0Hit := hit } := by
  by_cases last : lineLength d ≤ d.dot + 1
  · refine (if_pos last).trans ?_
    rw [lineEndWork_status, Video.advanced_last last]
  · refine (if_neg last).trans ?_
    rw [Video.advanced_middle (Nat.lt_of_not_le last)]

/-- One dot on the Video Engine: the move to the next dot, with the address and the flags of its work. -/
theorem videoStep_video (s : State) :
    (videoStep s).video =
      { s.video.advanced with
        v := (dotWork s).video.v
        vblank := (dotWork s).video.vblank
        sprite0Hit := (dotWork s).video.sprite0Hit } := by
  rw [videoStep, advanceDot_video, dotWork_video, Video.advanced_status]

theorem lineLength_le (d : Video) : lineLength d ≤ 341 := by
  unfold lineLength
  split <;> decide

theorem nextScanline_le (n : Nat) : nextScanline n ≤ 261 := by
  unfold nextScanline
  split <;> omega

end Sys2Proof.Machine
end

section
/-! PROOF. Sprite selection (R467): the first eight covering indices of an ascending list. -/

namespace Sys2Proof.Machine

theorem spriteHeight_eq (ctrl : Byte) : spriteHeight ctrl = if ctrl.toNat / 32 % 2 = 1 then 16 else 8 := by
  simp only [spriteHeight, bitOf_eq, decide_eq_true_eq, Nat.reducePow]

/-- Whether a sprite covers a line (R467), without the difference of the two. -/
theorem spriteCovers_iff (d : Video) (line i : Nat) :
    spriteCovers d line i = true ↔
      (Memory.read d.oam (4 * i)).toNat ≤ line ∧
        line < (Memory.read d.oam (4 * i)).toNat + spriteHeight d.ctrl := by
  rw [spriteCovers, Bool.and_eq_true, decide_eq_true_eq, decide_eq_true_eq]
  change (Memory.read d.oam (4 * i)).toNat ≤ line ∧ line - (Memory.read d.oam (4 * i)).toNat < _ ↔ _
  omega

section
variable (d : Video) (line : Nat)

theorem selectSprites_length_le : (selectSprites d line).length ≤ 8 := List.length_take_le ..

/-- The covering indices ascend, being picked from 0, 1, 2 and so on. -/
theorem coveringSprites_pairwise : ((List.range 64).filter (spriteCovers d line)).Pairwise (· < ·) :=
  List.pairwise_lt_range.filter _

theorem selectSprites_pairwise : (selectSprites d line).Pairwise (· < ·) :=
  (coveringSprites_pairwise d line).sublist (List.take_sublist ..)

variable {d line}

theorem mem_coveringSprites {i : Nat} :
    i ∈ (List.range 64).filter (spriteCovers d line) ↔ i < 64 ∧ spriteCovers d line i = true := by
  rw [List.mem_filter, List.mem_range]

theorem of_mem_selectSprites {i : Nat} (h : i ∈ selectSprites d line) :
    i < 64 ∧ spriteCovers d line i = true := mem_coveringSprites.1 (List.mem_of_mem_take h)

/-- A covering sprite that is not selected stands behind eight that are. -/
theorem selectSprites_full {j : Nat} (lt : j < 64) (covers : spriteCovers d line j = true)
    (out : j ∉ selectSprites d line) :
    (selectSprites d line).length = 8 ∧ ∀ i ∈ selectSprites d line, i < j := by
  have ascending := coveringSprites_pairwise d line
  have mem := mem_coveringSprites.2 ⟨lt, covers⟩
  unfold selectSprites at out ⊢
  generalize (List.range 64).filter (spriteCovers d line) = all at *
  rw [← List.take_append_drop 8 all] at mem ascending
  have rest : j ∈ all.drop 8 := (List.mem_append.1 mem).resolve_left out
  have long := List.length_pos_of_mem rest
  rw [List.length_drop] at long
  exact ⟨by rw [List.length_take]; omega, fun i hi => (List.pairwise_append.1 ascending).2.2 i hi j rest⟩

end

/-- Settles O42: the selection is a prefix of the covering indices, taken at the last dot of a render line. -/
theorem spriteSelectionTakesTheLowestEight : Obligations.SpriteSelectionTakesTheLowestEight := by
  intro d line h covers sel
  have covers_iff (i : Nat) : spriteCovers d line i = true ↔ covers i := by
    rw [spriteCovers_iff, spriteHeight_eq]
  refine ⟨selectSprites_length_le d line, selectSprites_pairwise d line, fun i hi => ?_,
    fun j lt hj => selectSprites_full lt ((covers_iff j).2 hj), ?_⟩
  · obtain ⟨lt, hc⟩ := of_mem_selectSprites hi
    exact ⟨lt, (covers_iff i).1 hc⟩
  · rintro s rfl stage rfl dot
    have last : lineLength s.video ≤ s.video.dot + 1 := by
      rw [dot]
      exact lineLength_le s.video
    rw [videoStep_video, Video.advanced_last last]
    simp only [lineEndWork, stage]
    rfl

end Sys2Proof.Machine
end

section
/-! PROOF. The units of the Audio Engine as arithmetic (R507, R508, R517, R523), and what the frame sequencer
and the mixer leave at the end of a step (R501, R504). -/

namespace Sys2Proof.Machine

/-! ### The units -/

theorem lengthOf_le (i : BitVec 5) : lengthOf i ≤ 254 := by
  revert i
  decide

theorem loadLength_le {enabled : Bool} {old : Nat} (value : Byte) (h : old ≤ 254) :
    loadLength enabled old value ≤ 254 := by
  unfold loadLength
  split
  · exact lengthOf_le _
  · exact h

theorem clockLength_eq (halt : Bool) (n : Nat) : clockLength halt n = if halt then n else n - 1 := by
  cases halt with
  | true => rfl
  | false =>
    cases n with
    | zero => rfl
    | succ n => rfl

theorem clockLength_le (halt : Bool) (n : Nat) : clockLength halt n ≤ n := by
  rw [clockLength_eq]
  split <;> omega

/-- The noise shift register moved by one (R517): the feedback bit enters at bit 14. -/
theorem toNat_shiftLfsr (mode : Bool) (l : BitVec 15) :
    (shiftLfsr mode l).toNat =
      l.toNat / 2 +
        16384 * ((l.toNat % 2 + if mode then l.toNat / 64 % 2 else l.toNat / 2 % 2) % 2) := by
  have low : l.toNat / 2 < 2 ^ 14 := by have := l.isLt; omega
  have enters (b : Bool) : (bitVec 15 b <<< 14).toNat = 2 ^ 14 * bitNat b := by cases b <;> rfl
  have feedback (m n : Nat) : bitNat (decide (m % 2 = 1) ^^ decide (n % 2 = 1)) = (m % 2 + n % 2) % 2 := by
    obtain hm | hm := Nat.mod_two_eq_zero_or_one m <;> obtain hn | hn := Nat.mod_two_eq_zero_or_one n <;>
      rw [hm, hn] <;> rfl
  have moved : (shiftLfsr mode l).toNat =
      2 ^ 14 * bitNat (bitOf l 0 ^^ if mode then bitOf l 6 else bitOf l 1) + l.toNat / 2 := by
    rw [Nat.two_pow_add_eq_or_of_lt low, ← enters, Nat.or_comm]
    simp [shiftLfsr, Nat.shiftRight_eq_div_pow]
  rw [moved, Nat.add_comm]
  cases mode <;> simp [bitOf_eq, feedback]

/-- A shift register that is not 0 never becomes 0 (R517): from 1, the feedback bit is 1. -/
theorem shiftLfsr_ne_zero (mode : Bool) {l : BitVec 15} (h : l ≠ 0) : shiftLfsr mode l ≠ 0 := by
  have pos : l.toNat ≠ 0 := fun e => h (BitVec.eq_of_toNat_eq e)
  intro zero
  have e := toNat_shiftLfsr mode l
  rw [zero] at e
  have one : l.toNat = 1 := by
    change 0 = _ at e
    omega
  simp [one] at e

/-- A sample starts at 0xC000 plus 64 for each unit (R523). -/
theorem sampleStart_eq (v : Byte) :
    0xC000#16 + (v.setWidth 16 <<< 6) = BitVec.ofNat 16 (0xC000 + v.toNat * 64) := by
  apply BitVec.eq_of_toNat_eq
  have := v.isLt
  simp [Nat.shiftLeft_eq]

/-- A sample has 16 bytes for each unit and one more (R523). -/
theorem sampleLength_eq (v : Byte) :
    (v.setWidth 12 <<< 4) + 1 = BitVec.ofNat 12 (v.toNat * 16 + 1) := by
  apply BitVec.eq_of_toNat_eq
  have := v.isLt
  simp [Nat.shiftLeft_eq]

/-! ### The end of a step -/

/-- The clocks a step of the frame sequencer gives the units (R504). -/
def FrameEvent.clocks : FrameEvent → Audio → Audio
  | .nothing, a => a
  | .quarter, a => quarterClock a
  | .quarterHalf, a | .last, a => halfClock (quarterClock a)

/-- What the frame sequencer does in the current cycle (R504). -/
def State.frameEvent (s : State) : FrameEvent :=
  Machine.frameEvent s.cart.region s.audio.frame.mode5 s.audio.frame.cycle

/-- Whether the current cycle raises the frame interrupt (R504). -/
def State.raisesFrameIrq (s : State) : Bool :=
  decide (s.frameEvent = .last) && !s.audio.frame.irqInhibit

theorem FrameEvent.clocks_frame (e : FrameEvent) (a : Audio) : (e.clocks a).frame = a.frame := by
  cases e <;> rfl

theorem FrameEvent.clocks_tap (e : FrameEvent) (a : Audio) :
    (e.clocks a).tapPos = a.tapPos ∧ (e.clocks a).acc = a.acc := by
  cases e <;> exact ⟨rfl, rfl⟩

/-- The frame interrupt's flag and its source raised, or neither (R406, R504). -/
def State.orFrameIrq (s : State) (raised : Bool) : State :=
  (s.setAudio
      { s.audio with frame := { s.audio.frame with irqFlag := s.audio.frame.irqFlag || raised } }).setIrq
    { s.cpu.irq with frame := s.cpu.irq.frame || raised }

theorem State.orFrameIrq_false (s : State) : s.orFrameIrq false = s := by
  simp only [State.orFrameIrq, Bool.or_false]
  rfl

theorem raiseFrameIrq_eq (s : State) : raiseFrameIrq s = s.orFrameIrq (!s.audio.frame.irqInhibit) := by
  unfold raiseFrameIrq
  cases s.audio.frame.irqInhibit with
  | true => exact s.orFrameIrq_false.symm
  | false => simp [State.orFrameIrq, setFrameIrq]

/-- The sequencer's clocks and its interrupt (R504), which the last step alone raises. -/
theorem sequencerWork_eq (e : FrameEvent) (s : State) :
    sequencerWork e s =
      (s.setAudio (e.clocks s.audio)).orFrameIrq (decide (e = .last) && !s.audio.frame.irqInhibit) := by
  cases e with
  | last => exact raiseFrameIrq_eq _
  | _ => exact (State.orFrameIrq_false _).symm

/-- The end of a step (R501, R504): the units clocked, the cycle counted on, the interrupt raised or not, and
the mixer's accumulator, tap position and output. -/
theorem finishAudioStep_eq (s : State) :
    finishAudioStep s =
      ((s.setAudio
            { s.frameEvent.clocks s.audio with
              frame :=
                { s.audio.frame with
                  cycle := nextCycle s.frameEvent s.audio.frame.cycle
                  irqFlag := s.audio.frame.irqFlag || s.raisesFrameIrq }
              tapPos := (finishAudioStep s).audio.tapPos
              acc := (finishAudioStep s).audio.acc }).setIrq
          { s.cpu.irq with frame := s.cpu.irq.frame || s.raisesFrameIrq }).setOut
        { s.out with sample := (finishAudioStep s).out.sample } := by
  unfold finishAudioStep mixerWork
  dsimp only
  rw [sequencerWork_eq]
  have frame := s.frameEvent.clocks_frame s.audio
  unfold State.frameEvent at frame
  simp only [State.orFrameIrq, State.setAudio_audio, State.setIrq_audio, State.setOut_audio, frame]
  rfl

theorem firDecimation_pos (r : Region) : 0 < Config.firDecimation r := by
  unfold Config.firDecimation
  omega

/-- The tap position wraps at the kernel's length (R542). -/
theorem finishAudioStep_tapPos_lt {s : State} (h : s.audio.tapPos < Config.firDecimation s.cart.region) :
    (finishAudioStep s).audio.tapPos < Config.firDecimation s.cart.region := by
  have tap := (s.frameEvent.clocks_tap s.audio).1
  unfold State.frameEvent at tap
  unfold finishAudioStep mixerWork
  dsimp only
  rw [sequencerWork_eq]
  simp only [State.orFrameIrq, State.setAudio_audio, State.setIrq_audio, State.setOut_audio, tap,
    State.setAudio_cart, State.setIrq_cart, decide_eq_true_eq]
  have := firDecimation_pos s.cart.region
  split <;> omega

end Sys2Proof.Machine
end

section
/-! PROOF. The positions and counters of the three engines stay in their ranges (R450, R451, R500, R561). -/

namespace Sys2Proof.Machine

/-! ### The frame sequencer and the channels -/

/-- The last step of a mode is its event `last`, and no other cycle's (R504). -/
theorem frameEvent_eq_last (r : Region) (mode5 : Bool) (cycle : Nat) :
    frameEvent r mode5 cycle = .last ↔ cycle = lastStepCycle r mode5 := by
  cases r <;> cases mode5 <;> simp only [frameEvent, lastStepCycle, frameStepCycles] <;>
    simp <;> split_ifs <;> simp <;> omega

theorem nextCycle_le {r : Region} {mode5 : Bool} {cycle : Nat} (h : cycle ≤ lastStepCycle r mode5) :
    nextCycle (frameEvent r mode5 cycle) cycle ≤ lastStepCycle r mode5 := by
  simp only [nextCycle, frameEvent_eq_last]
  split <;> omega

theorem Pulse.clockTimer_length (p : Pulse) : p.clockTimer.length = p.length := by
  unfold Pulse.clockTimer
  split <;> rfl

theorem Triangle.clockTimer_length (t : Triangle) : t.clockTimer.length = t.length := by
  unfold Triangle.clockTimer
  split <;> rfl

theorem Noise.clockTimer_length (n : Noise) (r : Region) : (n.clockTimer r).length = n.length := by
  unfold Noise.clockTimer
  split <;> rfl

theorem Noise.clockTimer_lfsr_ne_zero {n : Noise} (h : n.lfsr ≠ 0) (r : Region) :
    (n.clockTimer r).lfsr ≠ 0 := by
  unfold Noise.clockTimer
  split
  · exact shiftLfsr_ne_zero _ h
  · exact h

theorem Pulse.writeReg_length_le {p : Pulse} (h : p.length ≤ 254) (off : BitVec 2) (v : Byte) :
    (p.writeReg off v).length ≤ 254 := by
  unfold Pulse.writeReg
  split
  case h_4 => exact loadLength_le v h
  all_goals exact h

theorem Triangle.writeReg_length_le {t : Triangle} (h : t.length ≤ 254) (off : BitVec 2) (v : Byte) :
    (t.writeReg off v).length ≤ 254 := by
  unfold Triangle.writeReg
  split
  case h_4 => exact loadLength_le v h
  all_goals exact h

theorem Noise.writeReg_length_le {n : Noise} (h : n.length ≤ 254) (off : BitVec 2) (v : Byte) :
    (n.writeReg off v).length ≤ 254 := by
  unfold Noise.writeReg
  split
  case h_4 => exact loadLength_le v h
  all_goals exact h

theorem Noise.writeReg_lfsr (n : Noise) (off : BitVec 2) (v : Byte) : (n.writeReg off v).lfsr = n.lfsr := by
  unfold Noise.writeReg
  split <;> rfl

/-! ### The delta-modulation channel -/

/-- The DMC's counters lie in their ranges (R500, R522, R523): the part of `Audio.Ok` about it. -/
structure Dmc.Ok (d : Dmc) : Prop where
  startAddr : 0xC000 ≤ d.startAddr.toNat ∧ d.startAddr.toNat ≤ 0xFFC0
  startLen : 1 ≤ d.startLen.toNat ∧ d.startLen.toNat ≤ 4081
  curAddr : 0xC000 ≤ d.curAddr.toNat
  remaining : d.remaining ≤ 4081
  bitsLeft : 1 ≤ d.bitsLeft ∧ d.bitsLeft ≤ 8

section
variable {d : Dmc} (h : d.Ok)
include h

theorem Dmc.Ok.restart : d.restart.Ok := { h with curAddr := h.startAddr.1, remaining := h.startLen.2 }

theorem Dmc.Ok.writeReg (off : BitVec 2) (v : Byte) : (d.writeReg off v).Ok := by
  have := v.isLt
  unfold Dmc.writeReg
  split
  case h_3 => exact { h with startAddr := by rw [sampleStart_eq, BitVec.toNat_ofNat]; omega }
  case h_4 => exact { h with startLen := by rw [sampleLength_eq, BitVec.toNat_ofNat]; omega }
  all_goals exact { h with }

theorem Dmc.Ok.clockOutput : d.clockOutput.Ok := by
  obtain ⟨low, high⟩ := h.bitsLeft
  unfold Dmc.clockOutput
  dsimp only
  split
  · split <;> exact { h with bitsLeft := ⟨by simp, Nat.le_refl 8⟩ }
  · exact { h with bitsLeft := by dsimp only at *; omega }

theorem Dmc.Ok.clockTimer (r : Region) : (d.clockTimer r).Ok := by
  unfold Dmc.clockTimer
  split
  · exact { h.clockOutput with }
  · exact { h with }

/-- The sample cursor only rises, and stays at 0xFFFF (R525, log entry 15). -/
theorem Dmc.Ok.fetched (v : Byte) :
    { d with
        buffer := some v
        curAddr := nextSampleAddr d.curAddr
        remaining := d.remaining - 1 }.Ok := by
  have := h.remaining
  have := h.curAddr
  have next : 0xC000 ≤ (nextSampleAddr d.curAddr).toNat := by
    unfold nextSampleAddr
    split
    · exact h.curAddr
    · bv_omega
  exact { h with curAddr := next, remaining := by dsimp only; omega }

end

/-! ### The Audio Engine -/

section
variable {a : Audio} {r : Region} (h : a.Ok r)
include h

theorem Audio.Ok.dmcOk : a.dmc.Ok := { h with }

theorem Audio.Ok.withDmc {d : Dmc} (k : d.Ok) : { a with dmc := d }.Ok r := { k, h with }

theorem Audio.Ok.quarterClock : (quarterClock a).Ok r := { h with }

theorem Audio.Ok.halfClock : (halfClock a).Ok r :=
  { h with
    pulse1 := (clockLength_le _ _).trans h.pulse1
    pulse2 := (clockLength_le _ _).trans h.pulse2
    triangle := (clockLength_le _ _).trans h.triangle
    noise := (clockLength_le _ _).trans h.noise }

theorem Audio.Ok.clocks (e : FrameEvent) : (e.clocks a).Ok r := by
  cases e with
  | nothing => exact h
  | quarter => exact h.quarterClock
  | quarterHalf | last => exact h.quarterClock.halfClock

theorem Audio.Ok.clockTimers : (clockTimers a r).Ok r := by
  have triangle : a.triangle.clockTimer.length ≤ 254 := by
    rw [Triangle.clockTimer_length]
    exact h.triangle
  unfold Machine.clockTimers
  dsimp only
  split
  · exact
      { h.dmcOk.clockTimer r, h with
        pulse1 := by rw [Pulse.clockTimer_length]; exact h.pulse1
        pulse2 := by rw [Pulse.clockTimer_length]; exact h.pulse2
        triangle := triangle
        noise := by rw [Noise.clockTimer_length]; exact h.noise
        lfsr := Noise.clockTimer_lfsr_ne_zero h.lfsr r }
  · exact { h with triangle := triangle }

end

/-! ### What the bus and the steps of the Audio Engine do to it -/

theorem ReadKeeps.audioOk {s t : State} {r : Region} (k : ReadKeeps s t) (h : s.audio.Ok r) :
    t.audio.Ok r := by
  obtain ⟨f, g, e⟩ := k.audio
  rw [e]
  exact { h with }

theorem writeVideoRegister_audio (s : State) (reg : BitVec 3) (v : Byte) :
    (writeVideoRegister s reg v).audio = s.audio := by
  unfold writeVideoRegister
  split
  case h_7 =>
    unfold writeVramData videoWrite
    split_ifs <;> rfl
  all_goals rfl

/-- The frame counter control write (R505) on the Audio Engine: a new sequence, and with bit 7 set both
clocks. -/
theorem writeFrameControl_audio (s : State) (v : Byte) :
    (writeFrameControl s v).audio =
      let a : Audio :=
        { s.audio with
          frame :=
            { cycle := 0, mode5 := bitOf v 7, irqInhibit := bitOf v 6
              irqFlag := !bitOf v 6 && s.audio.frame.irqFlag } }
      if bitOf v 7 then halfClock (quarterClock a) else a := by
  unfold writeFrameControl
  cases bitOf v 6 <;> rfl

theorem spriteCopy_audioOk (page : Byte) {r : Region} (n : Nat) :
    ∀ {s : State}, s.audio.Ok r → (spriteCopy page n s).audio.Ok r := by
  induction n with
  | zero => exact id
  | succ n ih => exact fun h => ih ((busRead_keeps _ _).audioOk h)

section
variable {s : State} {r : Region} (h : s.audio.Ok r)
include h

theorem writeChannel_audioOk (reg : BitVec 5) (v : Byte) : (writeChannel s reg v).audio.Ok r := by
  unfold writeChannel
  dsimp only
  split
  · exact { h with pulse1 := Pulse.writeReg_length_le h.pulse1 _ v }
  · exact { h with pulse2 := Pulse.writeReg_length_le h.pulse2 _ v }
  · exact { h with triangle := Triangle.writeReg_length_le h.triangle _ v }
  · exact
      { h with
        noise := Noise.writeReg_length_le h.noise _ v
        lfsr := (Noise.writeReg_lfsr _ _ v).trans_ne h.lfsr }
  · split <;> exact h.withDmc (h.dmcOk.writeReg _ v)

theorem writeChannelEnable_audioOk (v : Byte) : (writeChannelEnable s v).audio.Ok r := by
  have kept (b : Bool) {n : Nat} (le : n ≤ 254) : (if b = true then n else 0) ≤ 254 := by
    split <;> omega
  have dmc : Dmc.Ok
      (if bitOf v 4 = false then { s.audio.dmc with remaining := 0 }
        else if s.audio.dmc.remaining = 0 then s.audio.dmc.restart else s.audio.dmc) := by
    split_ifs
    · exact { h.dmcOk with remaining := Nat.zero_le _ }
    · exact h.dmcOk.restart
    · exact h.dmcOk
  exact
    { dmc, h with
      pulse1 := kept _ h.pulse1
      pulse2 := kept _ h.pulse2
      triangle := kept _ h.triangle
      noise := kept _ h.noise }

theorem writeFrameControl_audioOk (v : Byte) : (writeFrameControl s v).audio.Ok r := by
  have started (f : FrameSeq) (zero : f.cycle = 0) : { s.audio with frame := f }.Ok r :=
    { h with cycle := by dsimp only; omega }
  rw [writeFrameControl_audio]
  dsimp only
  split
  · exact (started _ rfl).quarterClock.halfClock
  · exact started _ rfl

/-- A bus write changes the Audio Engine only through its own registers, and keeps its ranges (R107). -/
theorem busWrite_audioOk (addr : Word) (v : Byte) : (busWrite s addr v).audio.Ok r := by
  unfold busWrite
  cases windowOf addr with
  | ram | gap => exact h
  | video reg => dsimp only; rw [writeVideoRegister_audio]; exact h
  | channel reg => exact writeChannel_audioOk h reg v
  | spriteDma =>
    simp only [spriteDma, skipCycles, State.setPending_audio]
    exact spriteCopy_audioOk v 256 h
  | audioStatus => exact writeChannelEnable_audioOk h v
  | pad0 => unfold writeStrobe; dsimp only; split <;> exact h
  | pad1 => exact writeFrameControl_audioOk h v
  | saveRam cell => unfold writeSaveRam; dsimp only; split <;> exact h
  | rom => unfold writeMapper; dsimp only; split <;> exact h

theorem endOfSample_audioOk : (endOfSample s).audio.Ok r := by
  unfold endOfSample
  dsimp only
  split_ifs
  · exact h.withDmc h.dmcOk.restart
  · exact { h with }
  · exact h

theorem fetchSample_audioOk : (fetchSample s).audio.Ok r := by
  have read := (busRead_keeps (skipCycles s s.params.dmcStall) s.audio.dmc.curAddr).audioOk h
  have fetched := read.withDmc (read.dmcOk.fetched (busRead (skipCycles s s.params.dmcStall) s.audio.dmc.curAddr).value)
  unfold fetchSample
  dsimp only
  split
  · exact endOfSample_audioOk fetched
  · exact fetched

end

theorem finishAudioStep_audioOk {s : State} (h : s.audio.Ok s.cart.region) :
    (finishAudioStep s).audio.Ok s.cart.region := by
  have tap := finishAudioStep_tapPos_lt h.tapPos
  rw [finishAudioStep_eq]
  exact { h.clocks s.frameEvent with cycle := nextCycle_le h.cycle, tapPos := tap }

theorem audioStep_audioOk {s t : State} (h : s.audio.Ok s.cart.region) (ht : audioStep s = .next t) :
    t.audio.Ok s.cart.region := by
  obtain ⟨u, hu, rfl⟩ := audioStep_next ht
  have cart : u.cart = s.cart := (dmcReader_keeps hu).2
  have reader : u.audio.Ok s.cart.region := by
    obtain rfl | rfl := dmcReader_next hu
    · exact h.clockTimers
    · exact fetchSample_audioOk h.clockTimers
  rw [← cart] at reader ⊢
  exact finishAudioStep_audioOk reader

/-! ### The Video Engine -/

theorem Video.Ok.of_position {d e : Video} (h : d.Ok) (stage : e.stage = d.stage)
    (scanline : e.scanline = d.scanline) (dot : e.dot = d.dot)
    (lineSprites : e.lineSprites = d.lineSprites) : e.Ok where
  scanline := by rw [scanline]; exact h.scanline
  dot := by rw [dot]; exact h.dot
  stage := by rw [stage, scanline]; exact h.stage
  count := by rw [lineSprites]; exact h.count
  order := by rw [lineSprites]; exact h.order
  range := by rw [lineSprites]; exact h.range

/-- The end of a scanline drops the selected sprites, keeps them or selects new ones (R464, R467). -/
theorem Video.Ok.lineEndWork {d : Video} (h : d.Ok) : (lineEndWork d).Ok := by
  unfold Machine.lineEndWork
  split
  · exact { h with count := Nat.zero_le 8, order := .nil, range := nofun }
  · exact
      { h with
        count := selectSprites_length_le d d.scanline
        order := selectSprites_pairwise d d.scanline
        range := fun i hi => (of_mem_selectSprites hi).1 }
  · exact h
  · split <;> exact { h with }

theorem Video.Ok.advanced {d : Video} (h : d.Ok) : d.advanced.Ok := by
  by_cases last : lineLength d ≤ d.dot + 1
  · rw [Video.advanced_last last]
    exact
      { h.lineEndWork with
        scanline := nextScanline_le _
        dot := Nat.zero_le _
        stage := rfl }
  · have := lineLength_le d
    rw [Video.advanced_middle (Nat.lt_of_not_le last)]
    exact { h with dot := by dsimp only; omega }

theorem Video.Ok.videoStep {s : State} (h : s.video.Ok) : (videoStep s).video.Ok := by
  rw [videoStep_video]
  exact { h.advanced with }

/-! ### The dividers, and the tick -/

theorem divider_pos (r : Region) (e : Engine) : 0 < divider r e := by
  cases r <;> cases e <;> decide

/-- A divider counter set below its divider (R561). -/
theorem Sched.Ok.withCounter {c : Sched} {r : Region} (h : c.Ok r) (e : Engine) {n : Nat}
    (lt : n < divider r e) : (c.withCounter e n).Ok r := by
  cases e with
  | processor => exact { h with processor := lt }
  | video => exact { h with video := lt }
  | audio => exact { h with audio := lt }

theorem Sched.Ok.counter_lt {c : Sched} {r : Region} (h : c.Ok r) (e : Engine) :
    c.counter e < divider r e := by
  cases e with
  | processor => exact h.processor
  | video => exact h.video
  | audio => exact h.audio

theorem State.EnginesOk.of_write {s t : State} (h : s.EnginesOk) (k : WriteKeeps s t)
    (audio : t.audio.Ok s.cart.region) : t.EnginesOk where
  video := h.video.of_position k.stage k.scanline k.dot k.lineSprites
  audio := by rw [k.cart]; exact audio
  sched := by rw [k.cart, k.sched]; exact h.sched

theorem State.EnginesOk.videoStep {s : State} (h : s.EnginesOk) : (videoStep s).EnginesOk where
  video := h.video.videoStep
  audio := by rw [(videoStep_keeps s).audio, (videoStep_keeps s).cart]; exact h.audio
  sched := by rw [(videoStep_keeps s).sched, (videoStep_keeps s).cart]; exact h.sched

theorem State.EnginesOk.audioStep {s t : State} (h : s.EnginesOk) (ht : audioStep s = .next t) :
    t.EnginesOk := by
  have audio := audioStep_audioOk h.audio ht
  have ok : (t.setOut s.out).EnginesOk := h.of_write (audioStep_keeps ht) audio
  exact { ok with }

theorem keptByTick_enginesOk : KeptByTick State.EnginesOk where
  read addr h := h.of_write (busRead_keeps _ addr).toWrite ((busRead_keeps _ addr).audioOk h.audio)
  write addr v h := h.of_write (busWrite_keeps _ addr v) (busWrite_audioOk h.audio addr v)
  setCpu _ h := { h with }
  videoStep h := h.videoStep
  audioStep h ht := h.audioStep ht
  reload e h := { h with sched := h.sched.withCounter e (Nat.sub_lt (divider_pos _ e) Nat.one_pos) }
  countDown e h :=
    { h with sched := h.sched.withCounter e (Nat.lt_of_le_of_lt (Nat.sub_le _ _) (h.sched.counter_lt e)) }
  clearOut h := { h with }

/-- Settles O55: every access and every engine's step keeps the ranges. -/
theorem everyStepKeepsEnginesInRange : Obligations.EveryStepKeepsEnginesInRange :=
  fun _ _ h ht => keptByTick_enginesOk.step h ht

end Sys2Proof.Machine
end

section
/-! PROOF. The bytes a call and an interrupt sequence push, and what they leave unchanged (R23, R317, R404). -/

namespace Sys2Proof.Machine

@[simp] theorem push_sp (s : State) (v : Byte) : (push s v).cpu.sp = s.cpu.sp - 1 := by rw [push_cpu]

@[simp] theorem pushWord_cpu (s : State) (w : Word) :
    (pushWord s w).cpu = { s.cpu with sp := s.cpu.sp - 2 } := by
  simp only [pushWord, push_cpu, BitVec.sub_sub]
  rfl

theorem pushWord_sp (s : State) (w : Word) : (pushWord s w).cpu.sp = s.cpu.sp - 2 := by rw [pushWord_cpu]

theorem stackSlot_one (s : State) : stackSlot s 1 = stackAddr (s.cpu.sp - 1) := rfl

theorem stackSlot_two (s : State) : stackSlot s 2 = stackAddr (s.cpu.sp - 2) := rfl

theorem ne_sub_two (a : Byte) : a ≠ a - 2#8 := by bv_omega

theorem sub_one_ne_sub_two (a : Byte) : a - 1#8 ≠ a - 2#8 := by bv_omega

theorem SameOutside.setPc (s : State) (pc : Word) : SameOutside s (s.setPc pc) := .ofCpu s _

theorem SameOutside.setP (s : State) (p : Flags) : SameOutside s (s.setP p) := .ofCpu s _

theorem SameOutside.charge (s : State) (cost : Nat) : SameOutside s (charge s cost) := .ofCpu s _

/-- What only writes registers after `t` keeps what is outside the registers and work RAM. -/
theorem OnlyRamOutside.registers {s t u : State} (h : OnlyRamOutside s t) (k : SameOutside t u) :
    OnlyRamOutside s u where
  bus := by
    have e := h.bus
    simp only [State.setBus_bus, k.bus] at e ⊢
    exact e
  mapper := k.mapper.trans h.mapper
  video := k.video.trans h.video
  audio := k.audio.trans h.audio
  sched := k.sched.trans h.sched
  cart := k.cart.trans h.cart
  params := k.params.trans h.params
  draws := k.draws.trans h.draws
  out := k.out.trans h.out

theorem ByteKept.registers {s t u : State} {addr : Word} (h : ByteKept s t addr) (k : SameOutside t u) :
    ByteKept s u addr := fun plain => (k.busRead_value addr).trans (h plain)

/-- The two bytes of a word pushed, and what the pushes leave unchanged (R23, R317). -/
structure WordPushed (s t : State) (w : Word) : Prop where
  high : (busRead t (stackSlot s 0)).value = hiByte w
  low : (busRead t (stackSlot s 1)).value = loByte w
  memory :
    ∀ addr, storeTouches (stackSlot s 0) addr = false → storeTouches (stackSlot s 1) addr = false →
      ByteKept s t addr
  outside : OnlyRamOutside s t

theorem wordPushed (s : State) (w : Word) : WordPushed s (pushWord s w) w where
  high := by
    rw [stackSlot_zero]
    simp [pushWord, busRead_push, ne_sub_one]
  low := by rw [pushWord, stackSlot_one, busRead_push, push_sp, if_pos rfl]
  memory addr h0 h1 := by
    rw [stackSlot_zero] at h0
    rw [stackSlot_one, ← push_sp s (hiByte w)] at h1
    exact (byteKept_push s _ addr h0).trans (byteKept_push _ _ addr h1)
      ⟨(push_outside s _).cart, (push_outside s _).params⟩
  outside := (push_outside s _).trans (push_outside _ _)

theorem WordPushed.registers {s t u : State} {w : Word} (h : WordPushed s t w) (k : SameOutside t u) :
    WordPushed s u w where
  high := (k.busRead_value _).trans h.high
  low := (k.busRead_value _).trans h.low
  memory addr h0 h1 := (h.memory addr h0 h1).registers k
  outside := h.outside.registers k

/-- A word and a flag byte pushed (R404). -/
theorem pushedFrame (s : State) (w : Word) (flags : Byte) :
    PushedFrame s (push (pushWord s w) flags) w flags where
  high := by
    have high := (wordPushed s w).high
    rw [stackSlot_zero] at high ⊢
    simp [busRead_push, ne_sub_two, high]
  low := by
    have low := (wordPushed s w).low
    rw [stackSlot_one] at low ⊢
    simpa [busRead_push, sub_one_ne_sub_two] using low
  flags := by rw [stackSlot_two, busRead_push, pushWord_sp, if_pos rfl]
  memory addr h0 h1 h2 := by
    rw [stackSlot_two, ← pushWord_sp s w] at h2
    have outside := (wordPushed s w).outside
    exact ((wordPushed s w).memory addr h0 h1).trans (byteKept_push _ _ addr h2)
      ⟨outside.cart, outside.params⟩
  outside := (wordPushed s w).outside.trans (push_outside _ _)

/-- The frame of an interrupt sequence does not depend on the registers before and after its pushes but SP. -/
theorem PushedFrame.registers {s u t v : State} {pc : Word} {flags : Byte} (h : PushedFrame u t pc flags)
    (before : SameOutside s u) (sp : u.cpu.sp = s.cpu.sp) (after : SameOutside t v) :
    PushedFrame s v pc flags := by
  have slot (n : Byte) : stackSlot u n = stackSlot s n := by rw [stackSlot, stackSlot, sp]
  obtain ⟨high, low, flag, memory, outside⟩ := h
  simp only [slot] at high low flag memory
  have start : OnlyRamOutside s u :=
    ⟨by rw [before.bus]; rfl, before.mapper, before.video, before.audio, before.sched, before.cart,
      before.params, before.draws, before.out⟩
  refine ⟨(after.busRead_value _).trans high, (after.busRead_value _).trans low,
    (after.busRead_value _).trans flag, fun addr h0 h1 h2 plain => ?_, (start.trans outside).registers after⟩
  rw [← before.busRead_value addr]
  exact (memory addr h0 h1 h2).registers after ((before.plainMemory addr).trans plain)

end Sys2Proof.Machine
end

section
/-! PROOF. Jumps, calls and returns (R315 to R318). -/

namespace Sys2Proof.Machine

theorem mkWord_eq (hi lo : Byte) : mkWord hi lo = BitVec.ofNat 16 (hi.toNat * 256 + lo.toNat) := by
  have := hi.isLt
  have := lo.isLt
  apply BitVec.eq_of_toNat_eq
  rw [toNat_mkWord, BitVec.toNat_ofNat]
  omega

/-- The second byte of an indirect jump's pointer lies in the page of the first (R172). -/
theorem pointerHigh_eq (p : Word) :
    mkWord (hiByte p) (loByte p + 1) = BitVec.ofNat 16 (p.toNat / 256 * 256 + (p.toNat + 1) % 256) := by
  rw [mkWord_eq, toNat_hiByte, BitVec.toNat_add, toNat_loByte]
  simp

/-- Settles O20: JMP writes PC alone, and an indirect one keeps what its two reads keep. -/
theorem jumpGoesToTheTarget : Obligations.JumpGoesToTheTarget := by
  refine ⟨⟨rfl, rfl⟩, fun a s => ⟨_, rfl, .of (.refl s) rfl (.ofCpu s _)⟩, ?ind⟩
  intro p s l h
  have reads : jumpTarget (.ind p) s = { value := mkWord h.value l.value, state := h.state } := by
    rw [jumpTarget, readPair, pointerHigh_eq]
  have k : ReadKeeps s h.state := (busRead_keeps s p).trans (busRead_keeps _ _)
  have run : exec (.jmp (.ind p)) s = .next (charge (h.state.setPc (mkWord h.value l.value)) 5) :=
    congrArg (fun r : ReadWord => Host.Outcome.next (charge (r.state.setPc r.value) 5)) reads
  refine ⟨_, run, .of k ?_ (.ofCpu _ _)⟩
  rw [← mkWord_eq, charge, State.setPending, State.setPc, k.cpu_eq]

/-- Settles O21: JSR pushes a word and RTS pulls one, and both then write PC. -/
theorem callsAndReturns : Obligations.CallsAndReturns := by
  refine ⟨⟨rfl, fun target s => ⟨_, exec_jsr target s, ?cpu, ?pushed⟩⟩, rfl, ?rts⟩
  case cpu => rw [charge, State.setPending, State.setPc, pushWord_cpu]
  case pushed =>
    obtain ⟨high, low, memory, outside⟩ :=
      (wordPushed s (s.cpu.pc - 1)).registers ((SameOutside.setPc _ target).trans (.charge _ 6))
    exact ⟨high, low, memory, outside⟩
  case rts =>
    intro s lo hi
    have pc : mkWord hi lo + 1 = BitVec.ofNat 16 (hi.toNat * 256 + lo.toNat + 1) := by
      rw [mkWord_eq, BitVec.ofNat_add _ 1]
      rfl
    rw [← pc]
    refine ⟨_, (exec_rts s).trans ?_, .of (.refl s) rfl (.ofCpu s _)⟩
    rw [pullWord_eq]
    rfl

end Sys2Proof.Machine
end

section
/-! PROOF. The flag instructions, NOP and the unrecognized opcodes (R325 to R331, R342, R343). -/

namespace Sys2Proof.Machine

/-- Settles O22: each is `flagWith` of one flag, and the poll reads I while no sum reads D. -/
theorem flagInstructionsWriteOneFlag : Obligations.FlagInstructionsWriteOneFlag := by
  refine ⟨.ofExec rfl fun _ => rfl, .ofExec rfl fun _ => rfl, .ofExec rfl fun _ => rfl,
    .ofExec rfl fun _ => rfl, .ofExec rfl fun _ => rfl, .ofExec rfl fun _ => rfl,
    .ofExec rfl fun _ => rfl, fun s t => ⟨?cli, ?sei⟩, fun p b d a m => ⟨?pushed, rfl, rfl⟩⟩
  case cli =>
    rintro ⟨⟩
    simp [poll_eq, charge]
  case sei =>
    rintro ⟨⟩
    simp [poll_eq, charge]
  case pushed =>
    obtain ⟨c, z, i, d, v, n⟩ := p
    revert b c z i d v n
    decide

/-- Settles O23: a charge of two cycles adds one to the counter, a charge of one adds none. -/
theorem noOperations : Obligations.NoOperations :=
  ⟨.ofExec rfl fun _ => rfl, fun _ unlisted =>
    ⟨decode_unrecognized unlisted, fun s => ⟨_, rfl, .of (.refl s) rfl (.ofCpu s _)⟩⟩⟩

end Sys2Proof.Machine
end

section
/-! PROOF. The processor's step and the interrupt sequences (R340, R341, R400 to R408). -/

namespace Sys2Proof.Machine

/-! ### The cases of a step -/

section
variable {s : State}

theorem processorStep_idle (h : 0 < s.cpu.pending) :
    processorStep s = .next (s.setPending (s.cpu.pending - 1)) := if_pos h

variable (idle : s.cpu.pending = 0)
include idle

theorem processorStep_due : processorStep s = executionStep s := if_neg (by omega)

theorem processorStep_nmi (h : poll s.cpu = .nmi) :
    processorStep s = .next (charge (takeInterrupt .nmi (s.setNmi false)) 7) := by
  rw [processorStep_due idle, executionStep, h]

theorem processorStep_irq (h : poll s.cpu = .irq) :
    processorStep s = .next (charge (takeInterrupt .irq s) 7) := by
  rw [processorStep_due idle, executionStep, h]

theorem processorStep_instruction (h : poll s.cpu = .instruction) :
    processorStep s = exec (fetchInstr s).instr (fetchInstr s).state := by
  rw [processorStep_due idle, executionStep, h]
  rfl

end

theorem IrqLines.any_eq_false {l : IrqLines} :
    l.any = false ↔ l.frame = false ∧ l.dmc = false ∧ l.mapper = false := by
  simp [IrqLines.any, and_assoc]

theorem IrqLines.any_eq_true {l : IrqLines} :
    l.any = true ↔ l.frame = true ∨ l.dmc = true ∨ l.mapper = true := by
  simp [IrqLines.any, or_assoc]

theorem poll_nmi {c : Cpu} (h : c.nmi = true) : poll c = .nmi := if_pos h

theorem poll_irq {c : Cpu} (latch : c.nmi = false) (line : c.irq.any = true) (clear : c.p.i = false) :
    poll c = .irq := by
  simp [poll, latch, line, clear]

theorem poll_instruction {c : Cpu} (latch : c.nmi = false) (h : c.irq.any = false ∨ c.p.i = true) :
    poll c = .instruction := by
  obtain h | h := h <;> simp [poll, latch, h]

/-- Settles O6: the counter is looked at first, then the poll. -/
theorem processorStepOrder : Obligations.ProcessorStepOrder :=
  fun _ =>
    ⟨processorStep_idle, fun idle latch => processorStep_nmi idle (poll_nmi latch),
      fun idle latch line clear =>
        processorStep_irq idle (poll_irq latch (IrqLines.any_eq_true.2 line) clear),
      fun idle latch masked =>
        processorStep_instruction idle
          (poll_instruction latch (masked.imp_left IrqLines.any_eq_false.2))⟩

/-! ### The sequences and the return -/

/-- The registers after an interrupt sequence (R404). -/
theorem takeInterrupt_cpu (k : InterruptKind) (s : State) :
    (takeInterrupt k s).cpu =
      { s.cpu with
        sp := s.cpu.sp - 3
        p := { s.cpu.p with i := true }
        pc :=
          mkWord (readPrg s.cart s.mapper.regs (k.vector + 1)) (readPrg s.cart s.mapper.regs k.vector) } := by
  rw [takeInterrupt_eq]
  simp only [State.setPc, State.setP, push_cpu, BitVec.sub_sub]
  rfl

/-- What an interrupt sequence and its charge push and leave unchanged (R404): `u` is the state it starts
from, whose registers but SP need not be those of `s`. -/
theorem takeInterrupt_frame (k : InterruptKind) {s u : State} (n : Nat) (same : SameOutside s u)
    (sp : u.cpu.sp = s.cpu.sp) :
    PushedFrame s (charge (takeInterrupt k u) n) u.cpu.pc (u.cpu.p.pushed k.breakBit) := by
  refine (pushedFrame u u.cpu.pc (u.cpu.p.pushed k.breakBit)).registers same sp ?_
  rw [takeInterrupt_eq, ← pushWord]
  exact ((SameOutside.setP _ _).trans (.setPc _ _)).trans (.charge _ n)

/-- Settles O7: each sequence is `takeInterrupt` of its vector. -/
theorem interruptSequences : Obligations.InterruptSequences := by
  intro s idle
  refine ⟨fun latch => ⟨_, processorStep_nmi idle (poll_nmi latch), ?_, ?_⟩,
    fun latch line clear => ⟨_, processorStep_irq idle (poll_irq latch line clear), ?_, ?_⟩⟩
  · rw [charge, State.setPending, takeInterrupt_cpu, State.setNmi, idle]
    rfl
  · exact takeInterrupt_frame .nmi 7 (.ofCpu s _) rfl
  · rw [charge, State.setPending, takeInterrupt_cpu, idle]
    rfl
  · exact takeInterrupt_frame .irq 7 (.refl s) rfl

/-- Settles O8: BRK takes the sequence from the address two past its opcode, and sets I. -/
theorem breakTakesTheInterrupt : Obligations.BreakTakesTheInterrupt := by
  refine ⟨rfl, fun s => ⟨_, exec_brk s, ?cpu, takeInterrupt_frame .brk 7 (.ofCpu s _) rfl, ?poll⟩⟩
  case cpu =>
    rw [charge, State.setPending, takeInterrupt_cpu]
    rfl
  case poll =>
    rw [charge, State.setPending, takeInterrupt_cpu, poll_eq]
    simp

end Sys2Proof.Machine

namespace Sys2Proof

open Machine

/-- Settles O9: the flags and PC pulled, and nothing else; the poll reads the pulled I. -/
theorem returnFromInterrupt : Obligations.ReturnFromInterrupt := by
  refine ⟨rfl, ?_⟩
  intro s v lo hi
  refine ⟨_, (exec_rti s).trans ?_, .of (.refl s) rfl (.ofCpu s _), poll_eq _⟩
  rw [returnFromInterrupt_eq]
  rfl

end Sys2Proof
end

section
/-! PROOF. What stops a step (R401, R525), and the processor's part of a tick (R400, R561). -/

namespace Sys2Proof.Machine

/-- No instruction is refused and none faults (R401). -/
theorem exec_completes (i : Instr) (s : State) : ∃ t, exec i s = .next t := by
  cases i <;> exact ⟨_, rfl⟩

theorem processorStep_completes (s : State) : ∃ t, processorStep s = .next t := by
  unfold processorStep executionStep
  split
  · exact ⟨_, rfl⟩
  · split
    · exact ⟨_, rfl⟩
    · exact ⟨_, rfl⟩
    · exact exec_completes _ _

theorem andThen_refused {r : Result} {k : State → Result} {x : Refusal} (h : andThen r k = .refused x) :
    r = .refused x ∨ ∃ s, r = .next s ∧ k s = .refused x := by
  cases r with
  | next s => exact .inr ⟨s, rfl, h⟩
  | fault f => cases h
  | refused y => exact .inl h

/-- The refusal of a sample that would run past 0xFFFF (R525, log entry 14). -/
def Refusal.PastEnd (r : Refusal) : Prop :=
  ∃ addr remaining, r = .dmcSamplePastEnd addr remaining ∧ 0x10000 < addr.toNat + remaining

theorem dmcReader_refused {s : State} {r : Refusal} (h : dmcReader s = .refused r) : r.PastEnd := by
  unfold dmcReader at h
  dsimp only at h
  split_ifs at h with fetch past
  cases h
  exact ⟨_, _, rfl, past⟩

theorem stepEngine_refused {e : Engine} {s : State} {r : Refusal} (h : stepEngine e s = .refused r) :
    r.PastEnd := by
  cases e with
  | processor =>
    obtain ⟨t, ht⟩ := processorStep_completes s
    cases ht.symm.trans h
  | video => cases h
  | audio =>
    change audioStep s = _ at h
    unfold audioStep at h
    split at h
    · cases h
    · cases h
    · rename_i refused
      cases h
      exact dmcReader_refused refused

theorem tickEngine_refused {e : Engine} {s : State} {r : Refusal} (h : tickEngine e s = .refused r) :
    r.PastEnd := by
  unfold tickEngine at h
  split at h
  · obtain h | ⟨t, -, h⟩ := andThen_refused h
    · exact stepEngine_refused h
    · cases h
  · cases h

theorem tickEngines_refused {es : List Engine} {s : State} {r : Refusal}
    (h : tickEngines es s = .refused r) : r.PastEnd := by
  induction es generalizing s with
  | nil => cases h
  | cons e es ih =>
    obtain h | ⟨t, -, h⟩ := andThen_refused h
    · exact tickEngine_refused h
    · exact ih h

/-- Settles O29: no arm of `exec` refuses, so that only the sample reader can. -/
theorem onlyTheSampleReaderStops : Obligations.OnlyTheSampleReaderStops :=
  ⟨exec_completes, processorStep_completes, fun _ _ h => tickEngines_refused h⟩

theorem andThen_assoc (r : Result) (k l : State → Result) :
    andThen (andThen r k) l = andThen r fun s => andThen (k s) l := by
  cases r <;> rfl

/-- What the last tick gave the host is not read by the bus. -/
theorem BytesAt.setOut {s : State} {bytes : List Byte} (h : BytesAt s bytes) (o : Output) :
    BytesAt (s.setOut o) bytes := fun k b hk => by
  obtain ⟨plain, read⟩ := h k b hk
  have same : MemSame s (s.setOut o) := ⟨rfl, rfl, rfl, rfl, rfl⟩
  exact ⟨plain, (same.byteKept _ plain).trans read⟩

/-- The processor's part of a tick that runs an instruction (R400, R561). -/
theorem tickEngine_processor {s : State} {bytes : List Byte} {i : Instr}
    (decoded : decode bytes = .ok (i, [])) (there : BytesAt s bytes) (due : s.sched.divProcessor = 0)
    (idle : s.cpu.pending = 0) (polled : poll s.cpu = .instruction) :
    tickEngine .processor s =
      andThen (exec i (s.setPc (s.cpu.pc + BitVec.ofNat 16 bytes.length))) fun t =>
        .next (setCounter .processor (divider s.cart.region .processor - 1) t) := by
  rw [tickEngine, Sched.counter, if_pos due, stepEngine, processorStep_instruction idle polled,
    fetchInstr_of_bytesAt decoded there]

/-- Settles O5: the due processor fetches the bytes at PC and runs what they decode to. -/
theorem stepRunsDecodedInstruction : Obligations.StepRunsDecodedInstruction := by
  intro s bytes i decoded there due idle polled after reload
  refine ⟨tickEngine_processor decoded there due idle polled, fun others order => ?_⟩
  rw [step, tick, order, tickEngines,
    tickEngine_processor (s := s.setOut Output.none) decoded (there.setOut _) due idle polled,
    andThen_assoc]
  rfl

end Sys2Proof.Machine
end

section
/-! PROOF. A field replaced, as arithmetic (R9). -/

namespace Sys2Proof.Machine

theorem getLsbD_setField {w n : Nat} (v : BitVec w) (lo : Nat) (x : BitVec n) (i : Nat) (h : i < w) :
    (setField v lo x).getLsbD i =
      if lo ≤ i ∧ i < lo + n then x.getLsbD (i - lo) else v.getLsbD i := by
  simp only [setField, BitVec.getLsbD_or, BitVec.getLsbD_and, BitVec.getLsbD_not, BitVec.getLsbD_shiftLeft,
    BitVec.getLsbD_setWidth, BitVec.getLsbD_allOnes, h, decide_true, Bool.true_and]
  by_cases below : i < lo
  · simp [below, Nat.not_le.2 below]
  · have inside : i - lo < w := by omega
    by_cases above : i - lo < n
    · have : lo ≤ i ∧ i < lo + n := by omega
      simp [below, above, inside, this]
    · have : ¬(lo ≤ i ∧ i < lo + n) := by omega
      simp [below, above, inside, this, BitVec.getLsbD_of_ge x _ (Nat.le_of_not_lt above)]

theorem toNat_zero_field (n : Nat) : (0 : BitVec n).toNat = 0 := by simp

/-- The bits below the field, the field, and the bits above it. -/
theorem toNat_setField {w n : Nat} (v : BitVec w) {lo : Nat} (x : BitVec n) (h : lo + n ≤ w) :
    (setField v lo x).toNat =
      v.toNat % 2 ^ lo + 2 ^ lo * x.toNat + 2 ^ (lo + n) * (v.toNat / 2 ^ (lo + n)) := by
  have parts : v.toNat % 2 ^ lo + 2 ^ lo * x.toNat + 2 ^ (lo + n) * (v.toNat / 2 ^ (lo + n)) =
      2 ^ lo * (2 ^ n * (v.toNat / 2 ^ (lo + n)) + x.toNat) + v.toNat % 2 ^ lo := by
    rw [Nat.pow_add]
    ring
  rw [parts]
  apply Nat.eq_of_testBit_eq
  intro i
  rw [Nat.testBit_two_pow_mul_add _ (Nat.mod_lt _ (Nat.two_pow_pos lo)),
    Nat.testBit_two_pow_mul_add _ x.isLt]
  by_cases out : w ≤ i
  · have high : (v.toNat / 2 ^ (lo + n)).testBit (i - lo - n) = false := by
      rw [Nat.testBit_div_two_pow]
      exact BitVec.getLsbD_of_ge v _ (by omega)
    rw [if_neg (by omega), if_neg (by omega), high]
    exact BitVec.getLsbD_of_ge _ i out
  · change (setField v lo x).getLsbD i = _
    rw [getLsbD_setField v lo x i (Nat.lt_of_not_le out)]
    by_cases below : i < lo
    · rw [if_neg (by omega), if_pos below, Nat.testBit_mod_two_pow]
      simp [below, BitVec.getLsbD]
    · by_cases inside : i < lo + n
      · rw [if_pos (by omega), if_neg below, if_pos (by omega)]
        rfl
      · rw [if_neg (by omega), if_neg below, if_neg (by omega), Nat.testBit_div_two_pow]
        congr 1
        omega

end Sys2Proof.Machine
end

section
/-! PROOF. The registers of the Video Engine (R452 to R462). -/

namespace Sys2Proof.Machine

/-! ### The register behind an address -/

section
variable {addr : Word} (lo : 0x2000 ≤ addr.toNat) (hi : addr.toNat < 0x4000) {reg : BitVec 3}
  (selected : addr.toNat % 8 = reg.toNat)
include lo hi selected

theorem windowOf_videoRegister : windowOf addr = .video reg := by
  have : field addr 0 3 = reg := BitVec.eq_of_toNat_eq ((toNat_field_zero addr 3).trans selected)
  rw [windowOf_video lo hi, this]

theorem busRead_videoRegister (s : State) : busRead s addr = readVideoRegister s reg := by
  simp only [busRead, windowOf_videoRegister lo hi selected]

theorem busWrite_videoRegister (s : State) (v : Byte) :
    busWrite s addr v = writeVideoRegister s reg v := by
  simp only [busWrite, windowOf_videoRegister lo hi selected]

end

/-- The status byte (R455): vertical blank in bit 7, sprite-zero hit in bit 6. -/
theorem statusByte_eq (vblank hit : Bool) :
    bitVec 8 vblank <<< 7 ||| bitVec 8 hit <<< 6 =
      BitVec.ofNat 8 ((if vblank then 128 else 0) + (if hit then 64 else 0)) := by
  cases vblank <;> cases hit <;> rfl

/-- Settles O39: each register is one constructor of the read and the write of the registers. -/
theorem videoControlStatusAndSpriteMemory : Obligations.VideoControlStatusAndSpriteMemory := by
  refine ⟨fun s addr other v ha ho => ⟨fun control mirror => ?control, fun status => ?status⟩,
    fun s addr v n lo hi => ⟨fun mask => ?mask, fun oamAddr => ?oamAddr, fun oamData => ?oamData⟩⟩
  case control =>
    have written := busWrite_videoRegister ha.1 ha.2 (reg := 0) control s v
    have t : (busWrite s addr v).video.t = setField s.video.t 10 (field v 0 2 : BitVec 2) := by
      rw [written]
      rfl
    refine ⟨?_, ?_, by rw [written]; rfl⟩
    · rw [busRead_videoRegister ho.1 ho.2 (reg := 0) mirror, written]
      rfl
    · rw [t, toNat_setField _ _ (by decide), toNat_field_zero]
      omega
  case status =>
    rw [busRead_videoRegister ha.1 ha.2 (reg := 2) status, busWrite_videoRegister ha.1 ha.2 (reg := 2) status]
    exact ⟨by rw [← statusByte_eq]; rfl, rfl⟩
  case mask =>
    rw [busRead_videoRegister lo hi (reg := 1) mask, busWrite_videoRegister lo hi (reg := 1) mask]
    exact ⟨rfl, rfl⟩
  case oamAddr =>
    rw [busRead_videoRegister lo hi (reg := 3) oamAddr, busWrite_videoRegister lo hi (reg := 3) oamAddr]
    exact ⟨rfl, rfl⟩
  case oamData =>
    rw [busRead_videoRegister lo hi (reg := 4) oamData, busWrite_videoRegister lo hi (reg := 4) oamData]
    refine ⟨rfl, rfl, ?_⟩
    have same : n = s.video.oamAddr ↔ n.toNat = s.video.oamAddr.toNat := BitVec.toNat_inj.symm
    simp only [same]
    exact Memory.read_write _ _ _ v

/-- The first of the two scroll writes (R459): coarse X and fine X. -/
theorem writeScroll_first {d : Video} (v : Byte) (h : d.w = false) :
    writeScroll d v =
      { d with t := setField d.t 0 (field v 3 5 : BitVec 5), fineX := field v 0 3, w := true } :=
  if_neg (by simp [h])

/-- The second of the two scroll writes (R459): coarse Y and fine Y. -/
theorem writeScroll_second {d : Video} (v : Byte) (h : d.w = true) :
    writeScroll d v =
      { d with
        t := setField (setField d.t 5 (field v 3 5 : BitVec 5)) 12 (field v 0 3 : BitVec 3)
        w := false } := if_pos h

/-- The first of the two address writes (R460): the high bits, with bit 14 cleared. -/
theorem writeVramAddress_first {d : Video} (v : Byte) (h : d.w = false) :
    writeVramAddress d v =
      { d with t := setField (setField d.t 8 (field v 0 6 : BitVec 6)) 14 (0 : BitVec 1), w := true } :=
  if_neg (by simp [h])

/-- The second of the two address writes (R460): the low byte, and the copy to the current address. -/
theorem writeVramAddress_second {d : Video} (v : Byte) (h : d.w = true) :
    writeVramAddress d v = { d with t := setField d.t 0 v, v := setField d.t 0 v, w := false } := if_pos h

/-- Settles O40: the toggle chooses the write, and each replaces fields of the temporary address. -/
theorem twoWriteRegisters : Obligations.TwoWriteRegisters := by
  intro s addr v lo hi d d' t
  have top := d.t.isLt
  have scroll (h : addr.toNat % 8 = 5) : busWrite s addr v = s.setVideo (writeScroll d v) :=
    busWrite_videoRegister lo hi (reg := 5) h s v
  have address (h : addr.toNat % 8 = 6) : busWrite s addr v = s.setVideo (writeVramAddress d v) :=
    busWrite_videoRegister lo hi (reg := 6) h s v
  refine ⟨fun h w => ?scroll1, fun h w => ?scroll2, fun h w => ?address1, fun h w => ?address2,
    fun h => ?fineX, ?frame⟩
  case scroll1 =>
    simp only [d', scroll h, State.setVideo_video, writeScroll_first v w, and_true, t]
    rw [toNat_setField _ _ (by decide), toNat_field, toNat_field]
    omega
  case scroll2 =>
    simp only [d', scroll h, State.setVideo_video, writeScroll_second v w, and_true, t]
    rw [toNat_setField _ _ (by decide), toNat_setField _ _ (by decide), toNat_field, toNat_field]
    omega
  case address1 =>
    simp only [d', address h, State.setVideo_video, writeVramAddress_first v w, and_true, t]
    rw [toNat_setField _ _ (by decide), toNat_setField _ _ (by decide), toNat_field, toNat_zero_field]
    omega
  case address2 =>
    simp only [d', address h, State.setVideo_video, writeVramAddress_second v w, and_true, t]
    rw [toNat_setField _ _ (by decide)]
    omega
  case fineX =>
    cases w : d.w with
    | false => simp only [d', address h, State.setVideo_video, writeVramAddress_first v w]
    | true => simp only [d', address h, State.setVideo_video, writeVramAddress_second v w]
  case frame =>
    rintro (h | h)
    · refine ⟨?_, (busRead_videoRegister lo hi (reg := 5) h s).trans rfl⟩
      cases w : d.w with
      | false => simp only [d', scroll h, State.setVideo_video, writeScroll_first v w]
      | true => simp only [d', scroll h, State.setVideo_video, writeScroll_second v w]
    · refine ⟨?_, (busRead_videoRegister lo hi (reg := 6) h s).trans rfl⟩
      cases w : d.w with
      | false => simp only [d', address h, State.setVideo_video, writeVramAddress_first v w]
      | true => simp only [d', address h, State.setVideo_video, writeVramAddress_second v w]

theorem vramIncrement_eq (ctrl : Byte) :
    vramIncrement ctrl = BitVec.ofNat 15 (if ctrl.toNat / 4 % 2 = 1 then 32 else 1) := by
  simp only [vramIncrement, bitOf_eq, decide_eq_true_eq, Nat.reducePow]
  split <;> rfl

theorem videoWrite_video (s : State) (a : BitVec 14) (v : Byte) : (videoWrite s a v).video = s.video := by
  unfold videoWrite
  split_ifs <;> rfl

theorem field_zero_eq_ofNat {w : Nat} (v : BitVec w) (n : Nat) : field v 0 n = BitVec.ofNat n v.toNat := by
  apply BitVec.eq_of_toNat_eq
  rw [toNat_field_zero, BitVec.toNat_ofNat]

/-- Settles O41: a read and a write of the data register, at the low 14 bits of the current address. -/
theorem videoDataRegister : Obligations.VideoDataRegister := by
  intro s addr v lo hi data a inc v'
  have at_ : field s.video.v 0 14 = a := field_zero_eq_ofNat s.video.v 14
  have next : s.video.v + vramIncrement s.video.ctrl = v' := by
    rw [vramIncrement_eq]
    simp only [v', inc, BitVec.ofNat_add, BitVec.ofNat_toNat, BitVec.setWidth_eq]
  have read : busRead s addr = readVramData s := busRead_videoRegister lo hi (reg := 7) data s
  have write : busWrite s addr v = writeVramData s v := busWrite_videoRegister lo hi (reg := 7) data s v
  rw [read, write, readVramData, writeVramData, at_, next]
  exact ⟨fun below => if_pos below, fun palette => if_neg (Nat.not_lt.2 palette),
    by simp only [videoWrite_video, next]⟩

end Sys2Proof.Machine
end

section
/-! PROOF. The position, the current address and the signals of a dot (R451, R463 to R465, R470, R471). -/

namespace Sys2Proof.Machine

/-! ### The stage of a scanline, and the enables, as numbers -/

theorem renderingEnabled_iff (mask : Byte) : renderingEnabled mask = true ↔ mask.toNat / 8 % 4 ≠ 0 := by
  simp only [renderingEnabled, bitOf_eq, Bool.or_eq_true, decide_eq_true_eq, Nat.reducePow]
  omega

theorem stageOf_render {n : Nat} (h : n < 240) : stageOf n = .render := if_pos h

theorem stageOf_postRender : stageOf 240 = .postRender := rfl

theorem stageOf_verticalBlank {n : Nat} (lo : 241 ≤ n) (hi : n ≤ 260) : stageOf n = .verticalBlank := by
  unfold stageOf
  rw [if_neg (by omega), if_neg (by omega), if_pos hi]

theorem stageOf_preRender : stageOf 261 = .preRender := rfl

theorem stageOf_eq_preRender {n : Nat} (h : n ≤ 261) : stageOf n = .preRender ↔ n = 261 := by
  unfold stageOf
  split_ifs <;> simp <;> omega

theorem stageOf_eq_postRender (n : Nat) : stageOf n = .postRender ↔ n = 240 := by
  unfold stageOf
  split_ifs <;> simp <;> omega

/-- The four kinds of scanline (R451). -/
theorem scanline_cases {n : Nat} (h : n ≤ 261) : n < 240 ∨ n = 240 ∨ (241 ≤ n ∧ n ≤ 260) ∨ n = 261 := by
  omega

section
variable {s : State} (h : s.video.Ok)
include h

theorem dotWork_render (line : s.video.scanline < 240) : dotWork s = renderDot s := by
  rw [dotWork, h.stage, stageOf_render line]

theorem dotWork_postRender (line : s.video.scanline = 240) : dotWork s = s := by
  rw [dotWork, h.stage, line, stageOf_postRender]

theorem dotWork_verticalBlank (line : 241 ≤ s.video.scanline ∧ s.video.scanline ≤ 260) :
    dotWork s = verticalBlankDot s := by
  rw [dotWork, h.stage, stageOf_verticalBlank line.1 line.2]

theorem dotWork_preRender (line : s.video.scanline = 261) : dotWork s = preRenderDot s := by
  rw [dotWork, h.stage, line, stageOf_preRender]

end

/-- The pre-render line of an odd frame with rendering enabled has one dot less (R451, R464). -/
def Video.Short (d : Video) : Prop :=
  d.scanline = 261 ∧ d.oddFrame = true ∧ d.mask.toNat / 8 % 4 ≠ 0

theorem lineLength_short {d : Video} (h : d.Ok) (short : d.Short) : lineLength d = 340 := by
  obtain ⟨line, odd, rendering⟩ := short
  exact if_pos ⟨by rw [h.stage, line, stageOf_preRender], odd, (renderingEnabled_iff _).2 rendering⟩

theorem lineLength_long {d : Video} (h : d.Ok) (long : ¬d.Short) : lineLength d = 341 := by
  refine if_neg fun ⟨stage, odd, rendering⟩ => long ⟨?_, odd, (renderingEnabled_iff _).1 rendering⟩
  rwa [h.stage, stageOf_eq_preRender h.scanline] at stage

theorem nextScanline_eq {n : Nat} (h : n ≤ 261) : nextScanline n = (n + 1) % 262 := by
  unfold nextScanline
  split <;> omega

/-- The odd-frame flag toggles at the end of scanline 260 (R470). -/
theorem lineEndWork_oddFrame {d : Video} (h : d.Ok) :
    (lineEndWork d).oddFrame = if d.scanline = 260 then !d.oddFrame else d.oddFrame := by
  unfold lineEndWork
  obtain line | line | line | line := scanline_cases h.scanline
  · rw [h.stage, stageOf_render line]
    exact (if_neg (by omega)).symm
  · rw [h.stage, line, stageOf_postRender]
    rfl
  · rw [h.stage, stageOf_verticalBlank line.1 line.2]
    dsimp only
    split <;> rfl
  · rw [h.stage, line, stageOf_preRender]
    rfl

theorem lineEndWork_lineSprites_preRender {d : Video} (h : d.Ok) (line : d.scanline = 261) :
    (lineEndWork d).lineSprites = [] := by
  rw [lineEndWork, h.stage, line, stageOf_preRender]

theorem lineEndWork_lineSprites_kept {d : Video} (h : d.Ok) (line : 240 ≤ d.scanline ∧ d.scanline ≤ 260) :
    (lineEndWork d).lineSprites = d.lineSprites := by
  unfold lineEndWork
  obtain post | blank : d.scanline = 240 ∨ 241 ≤ d.scanline := by omega
  · rw [h.stage, post, stageOf_postRender]
  · rw [h.stage, stageOf_verticalBlank blank line.2]
    dsimp only
    split <;> rfl

/-! ### The fields of a VRAM address (R457) -/

/-- The fields of a VRAM address (R457): coarse X and Y, the two bits that choose the nametable, fine Y. -/
structure VramFields (v : BitVec 15) (x y across down f : Nat) : Prop where
  value : v.toNat = x + 32 * y + 1024 * across + 2048 * down + 4096 * f
  x : x < 32
  y : y < 32
  across : across < 2
  down : down < 2
  f : f < 8

theorem vramFields (v : BitVec 15) :
    VramFields v (v.toNat % 32) (v.toNat / 32 % 32) (v.toNat / 1024 % 2) (v.toNat / 2048 % 2)
      (v.toNat / 4096) := by
  have := v.isLt
  constructor <;> omega

section
variable {v : BitVec 15} {x y across down f : Nat} (h : VramFields v x y across down f)
include h

theorem VramFields.setX (n : BitVec 5) : VramFields (setField v 0 n) n.toNat y across down f := by
  have := n.isLt
  obtain ⟨value, hx, hy, ha, hd, hf⟩ := h
  refine ⟨?_, by omega, hy, ha, hd, hf⟩
  rw [toNat_setField _ _ (by decide), value]
  omega

theorem VramFields.setY (n : BitVec 5) : VramFields (setField v 5 n) x n.toNat across down f := by
  have := n.isLt
  obtain ⟨value, hx, hy, ha, hd, hf⟩ := h
  refine ⟨?_, hx, by omega, ha, hd, hf⟩
  rw [toNat_setField _ _ (by decide), value]
  omega

theorem VramFields.setAcross (n : BitVec 1) : VramFields (setField v 10 n) x y n.toNat down f := by
  have := n.isLt
  obtain ⟨value, hx, hy, ha, hd, hf⟩ := h
  refine ⟨?_, hx, hy, by omega, hd, hf⟩
  rw [toNat_setField _ _ (by decide), value]
  omega

theorem VramFields.setDown (n : BitVec 1) : VramFields (setField v 11 n) x y across n.toNat f := by
  have := n.isLt
  obtain ⟨value, hx, hy, ha, hd, hf⟩ := h
  refine ⟨?_, hx, hy, ha, by omega, hf⟩
  rw [toNat_setField _ _ (by decide), value]
  omega

theorem VramFields.setFineY (n : BitVec 3) : VramFields (setField v 12 n) x y across down n.toNat := by
  have := n.isLt
  obtain ⟨value, hx, hy, ha, hd, hf⟩ := h
  refine ⟨?_, hx, hy, ha, hd, by omega⟩
  rw [toNat_setField _ _ (by decide), value]
  omega

end

/-! ### The moves of the current address as arithmetic (R464, R465) -/

/-- A VRAM address from its coarse coordinates, nametable and fine Y (R457). -/
def vramAddress (x y nametable fineY : Nat) : Nat := x + 32 * y + 1024 * nametable + 4096 * fineY

theorem VramFields.toNat_eq {v : BitVec 15} {x y across down f n : Nat} (h : VramFields v x y across down f)
    (nametable : across + 2 * down = n) : v.toNat = vramAddress x y n f := by
  rw [h.value, vramAddress, ← nametable]
  omega

/-- The nametable's two bits (R113). -/
theorem nametable_bits (v : Nat) : v / 1024 % 2 + 2 * (v / 2048 % 2) = v / 1024 % 4 := by omega

/-- The nametable to the right or left, and the one above or below. -/
theorem nametable_across {n : Nat} (h : n < 4) : n ^^^ 1 = (1 - n % 2) + 2 * (n / 2) := by
  revert n
  decide

theorem nametable_down {n : Nat} (h : n < 4) : n ^^^ 2 = n % 2 + 2 * (1 - n / 2) := by
  revert n
  decide

theorem toNat_xor_one (b : BitVec 1) : (b ^^^ 1).toNat = 1 - b.toNat := by
  revert b
  decide

theorem toNat_add_one_of_lt {n : Nat} {b : BitVec n} (h : b.toNat + 1 < 2 ^ n) :
    (b + 1).toNat = b.toNat + 1 := by
  obtain _ | n := n
  · simp at h
  · have one : (1 : BitVec (n + 1)).toNat = 1 := by simp
    rw [BitVec.toNat_add, one, Nat.mod_eq_of_lt h]

section
variable (v : BitVec 15)

theorem toNat_incrementX :
    (incrementX v).toNat =
      if v.toNat % 32 = 31 then
        vramAddress 0 (v.toNat / 32 % 32) ((v.toNat / 1024 % 4) ^^^ 1) (v.toNat / 4096)
      else vramAddress (v.toNat % 32 + 1) (v.toNat / 32 % 32) (v.toNat / 1024 % 4) (v.toNat / 4096) := by
  have column : (field v 0 5 : BitVec 5).toNat = v.toNat % 32 := toNat_field_zero v 5
  have last : field v 0 5 = 31#5 ↔ v.toNat % 32 = 31 := by
    rw [← column, ← BitVec.toNat_inj]
    rfl
  simp only [incrementX, last]
  split
  · refine (((vramFields v).setX _).setAcross _).toNat_eq ?_
    rw [toNat_xor_one, toNat_field, nametable_across (Nat.mod_lt _ (by decide))]
    omega
  · have next : (field v 0 5 + 1 : BitVec 5).toNat = v.toNat % 32 + 1 := by
      rw [toNat_add_one_of_lt, column]
      omega
    rw [← next]
    exact ((vramFields v).setX _).toNat_eq (nametable_bits _)

theorem toNat_incrementY :
    let coarseX := v.toNat % 32
    let coarseY := v.toNat / 32 % 32
    let nametable := v.toNat / 1024 % 4
    let fineY := v.toNat / 4096
    (incrementY v).toNat =
      if fineY < 7 then vramAddress coarseX coarseY nametable (fineY + 1)
      else if coarseY = 29 then vramAddress coarseX 0 (nametable ^^^ 2) 0
      else if coarseY = 31 then vramAddress coarseX 0 nametable 0
      else vramAddress coarseX (coarseY + 1) nametable 0 := by
  intro coarseX coarseY nametable fineY
  have top := v.isLt
  have row : (field v 12 3 : BitVec 3).toNat = fineY := by
    rw [toNat_field]
    omega
  have tile : (field v 5 5 : BitVec 5).toNat = coarseY := toNat_field v 5 5
  have bottom : field v 5 5 = 29#5 ↔ coarseY = 29 := by rw [← tile, ← BitVec.toNat_inj]; rfl
  have last : field v 5 5 = 31#5 ↔ coarseY = 31 := by rw [← tile, ← BitVec.toNat_inj]; rfl
  have fields := vramFields v
  have upper := fields.setFineY 0
  simp only [incrementY, row, bottom, last]
  split_ifs with fine wraps stays
  · have next : (field v 12 3 + 1 : BitVec 3).toNat = fineY + 1 := by
      rw [toNat_add_one_of_lt, row]
      omega
    rw [← next]
    exact (fields.setFineY _).toNat_eq (nametable_bits _)
  · refine ((upper.setY _).setDown _).toNat_eq ?_
    rw [toNat_xor_one, toNat_field, nametable_down (Nat.mod_lt _ (by decide))]
    omega
  · exact (upper.setY _).toNat_eq (nametable_bits _)
  · have next : (field v 5 5 + 1 : BitVec 5).toNat = coarseY + 1 := by
      rw [toNat_add_one_of_lt, tile]
      omega
    rw [← next]
    exact (upper.setY _).toNat_eq (nametable_bits _)

theorem toNat_copyHorizontal (t : BitVec 15) :
    (copyHorizontal v t).toNat =
      vramAddress (t.toNat % 32) (v.toNat / 32 % 32) (v.toNat / 1024 % 4 / 2 * 2 + t.toNat / 1024 % 2)
        (v.toNat / 4096) := by
  have column : (field t 0 5 : BitVec 5).toNat = t.toNat % 32 := toNat_field_zero t 5
  rw [← column]
  refine (((vramFields v).setX _).setAcross _).toNat_eq ?_
  rw [toNat_field]
  omega

theorem toNat_copyVertical (t : BitVec 15) :
    (copyVertical v t).toNat =
      vramAddress (v.toNat % 32) (t.toNat / 32 % 32)
        (t.toNat / 2048 % 2 * 2 + v.toNat / 1024 % 4 % 2) (t.toNat / 4096) := by
  have top := t.isLt
  have row : (field t 12 3 : BitVec 3).toNat = t.toNat / 4096 := by
    rw [toNat_field]
    omega
  have tile : (field t 5 5 : BitVec 5).toNat = t.toNat / 32 % 32 := toNat_field t 5 5
  rw [← row, ← tile]
  refine ((((vramFields v).setY _).setDown _).setFineY _).toNat_eq ?_
  rw [toNat_field]
  omega

end

end Sys2Proof.Machine
end

section
/-! PROOF. The work of a dot on the current address and on vertical blank, and what a dot gives the host (R464,
R465, R470, R471). -/

namespace Sys2Proof.Machine

/-! ### The current address after a dot -/

theorem addressAfterDot_eq (d : Video) (x : Nat) :
    addressAfterDot d x =
      if d.mask.toNat / 8 % 2 = 1 ∧ (d.fineX.toNat + x) % 8 = 7 then incrementX d.v else d.v := by
  simp only [addressAfterDot, bitOf_eq, Bool.and_eq_true, decide_eq_true_eq, Nat.reducePow]
  rfl

theorem renderDot_v (s : State) :
    let d := s.video
    (renderDot s).video.v =
      if 1 ≤ d.dot ∧ d.dot ≤ 256 then addressAfterDot d (d.dot - 1)
      else if d.dot = 257 ∧ renderingEnabled d.mask = true then incrementY d.v
      else if d.dot = 258 ∧ renderingEnabled d.mask = true then copyHorizontal d.v d.t
      else d.v := by
  unfold renderDot visibleDot
  dsimp only
  split_ifs <;> rfl

theorem preRenderDot_v (s : State) :
    let d := s.video
    (preRenderDot s).video.v =
      if d.dot = 1 then d.v
      else if d.dot = 257 ∧ renderingEnabled d.mask = true then copyHorizontal d.v d.t
      else if (280 ≤ d.dot ∧ d.dot ≤ 304) ∧ renderingEnabled d.mask = true then copyVertical d.v d.t
      else d.v := by
  unfold preRenderDot
  dsimp only
  split_ifs <;> rfl

theorem verticalBlankDot_v (s : State) : (verticalBlankDot s).video.v = s.video.v := by
  unfold verticalBlankDot
  dsimp only
  split_ifs <;> rfl

/-- The current address after the work of a dot (R464, R465). -/
theorem dotWork_v {s : State} (h : s.video.Ok) :
    let d := s.video
    let rendering := d.mask.toNat / 8 % 4 ≠ 0
    (dotWork s).video.v =
      if (d.scanline < 240 ∧ 1 ≤ d.dot ∧ d.dot ≤ 256) ∧ d.mask.toNat / 8 % 2 = 1 ∧
          (d.fineX.toNat + (d.dot - 1)) % 8 = 7 then incrementX d.v
      else if d.scanline < 240 ∧ d.dot = 257 ∧ rendering then incrementY d.v
      else if rendering ∧ ((d.scanline < 240 ∧ d.dot = 258) ∨ (d.scanline = 261 ∧ d.dot = 257)) then
        copyHorizontal d.v d.t
      else if rendering ∧ d.scanline = 261 ∧ 280 ≤ d.dot ∧ d.dot ≤ 304 then copyVertical d.v d.t
      else d.v := by
  intro d rendering
  obtain line | line | line | line := scanline_cases h.scanline
  · rw [dotWork_render h line, renderDot_v]
    simp only [renderingEnabled_iff, addressAfterDot_eq]
    grind
  · rw [dotWork_postRender h line]
    grind
  · rw [dotWork_verticalBlank h line, verticalBlankDot_v]
    grind
  · rw [dotWork_preRender h line, preRenderDot_v]
    simp only [renderingEnabled_iff]
    grind

/-! ### The move to the next dot -/

section
variable {d : Video} (h : d.Ok)
include h

/-- The last dot of a scanline (R451, R464). -/
theorem Video.Ok.lastDot_iff :
    lineLength d ≤ d.dot + 1 ↔ d.dot = 340 ∨ (d.dot = 339 ∧ d.Short) := by
  have top := h.dot
  by_cases short : d.Short
  · simp only [lineLength_short h short, short, and_true]
    omega
  · simp only [lineLength_long h short, short, and_false, or_false]
    omega

theorem Video.Ok.advanced_of_middle (middle : d.dot < 339 ∨ (d.dot = 339 ∧ ¬d.Short)) :
    d.advanced = { d with dot := d.dot + 1 } :=
  if_neg (by rw [h.lastDot_iff]; grind)

theorem Video.Ok.advanced_of_last (last : d.dot = 340 ∨ (d.dot = 339 ∧ d.Short)) :
    d.advanced =
      { Machine.lineEndWork d with
        dot := 0, scanline := nextScanline d.scanline, stage := stageOf (nextScanline d.scanline) } :=
  if_pos (h.lastDot_iff.2 last)

/-- Away from the ends of the render lines and the pre-render line the selected sprites stay (R467). -/
theorem Video.Ok.advanced_lineSprites_kept
    (away : d.dot < 339 ∨ (d.dot = 339 ∧ ¬d.Short) ∨ (240 ≤ d.scanline ∧ d.scanline ≤ 260)) :
    d.advanced.lineSprites = d.lineSprites := by
  obtain middle | middle | line := away
  · rw [h.advanced_of_middle (.inl middle)]
  · rw [h.advanced_of_middle (.inr middle)]
  · unfold Video.advanced
    split
    · exact lineEndWork_lineSprites_kept h line
    · rfl

end

/-- The move to the next dot writes the position, the selected sprites and the odd-frame flag. -/
theorem Video.advanced_eq (d : Video) :
    d.advanced =
      { d with
        dot := d.advanced.dot
        scanline := d.advanced.scanline
        stage := d.advanced.stage
        lineSprites := d.advanced.lineSprites
        oddFrame := d.advanced.oddFrame } := by
  by_cases last : lineLength d ≤ d.dot + 1
  · rw [Video.advanced_last last, lineEndWork_eq]
  · rw [Video.advanced_middle (Nat.lt_of_not_le last)]

theorem dotWork_out (s : State) : (dotWork s).out = { s.out with pixel := (dotWork s).out.pixel } := by
  unfold dotWork
  split
  · unfold preRenderDot
    dsimp only
    split_ifs <;> rfl
  · unfold renderDot visibleDot
    dsimp only
    split_ifs <;> rfl
  · rfl
  · unfold verticalBlankDot
    dsimp only
    split_ifs <;> rfl

theorem advanceDot_out (s : State) :
    (advanceDot s).out =
      { s.out with
        redraw := s.out.redraw ||
          decide (s.video.stage = .postRender ∧ lineLength s.video ≤ s.video.dot + 1) } := by
  unfold advanceDot endLine
  split
  case isTrue last => simp [last]
  case isFalse middle => simp [middle]

/-- What one dot gives the host (R471): its work's pixel, and the redraw signal after the post-render line. -/
theorem videoStep_out (s : State) :
    (videoStep s).out =
      { s.out with
        pixel := (dotWork s).out.pixel
        redraw := s.out.redraw ||
          decide (s.video.stage = .postRender ∧ lineLength s.video ≤ s.video.dot + 1) } := by
  have line : lineLength (dotWork s).video = lineLength s.video := by
    rw [dotWork_video]
    rfl
  have video := dotWork_video s
  have stage : (dotWork s).video.stage = s.video.stage := by rw [video]
  have dot : (dotWork s).video.dot = s.video.dot := by rw [video]
  rw [videoStep, advanceDot_out, line, stage, dot, dotWork_out]

/-- Settles O43: the position and the rest by the move to the next dot, the address by the dot's work. -/
theorem dotAndScanlineAdvance : Obligations.DotAndScanlineAdvance := by
  intro s h d d' rendering short
  have step : d' = _ := videoStep_video s
  refine ⟨fun middle => ?middle, fun last => ?last, ?_, ?_, ?_, ?_, ?_, ?_, ?_, ?_, fun line last => ?dropped,
    fun away => ?kept, ?redraw, ?address⟩
  case middle =>
    rw [step, h.advanced_of_middle middle]
    exact ⟨rfl, rfl, rfl, rfl⟩
  case last =>
    rw [step, h.advanced_of_last last, nextScanline_eq h.scanline]
    exact ⟨rfl, rfl, rfl, lineEndWork_oddFrame h⟩
  case dropped =>
    rw [step, h.advanced_of_last last]
    exact lineEndWork_lineSprites_preRender h line
  case kept =>
    rw [step]
    exact h.advanced_lineSprites_kept away
  case redraw =>
    have ends : d.stage = .postRender ∧ lineLength d ≤ d.dot + 1 ↔ d.scanline = 240 ∧ d.dot = 340 := by
      have top : d.dot ≤ 340 := h.dot
      rw [h.stage, stageOf_eq_postRender]
      refine and_congr_right fun line => ?_
      have long : ¬d.Short := fun pre => by exact absurd (line.symm.trans pre.1) (by decide)
      rw [lineLength_long h long]
      omega
    simp only [videoStep_out, ends, d]
  case address =>
    intro v t coarseX coarseY nametable fineY address visible background
    have moved : d'.v = (dotWork s).video.v := by rw [step]
    rw [moved, dotWork_v h, apply_ite BitVec.toNat, apply_ite BitVec.toNat, apply_ite BitVec.toNat,
      apply_ite BitVec.toNat, toNat_incrementX, toNat_incrementY, toNat_copyHorizontal, toNat_copyVertical]
    rfl
  all_goals rw [step, Video.advanced_eq]

theorem advanceDot_cpu (s : State) : (advanceDot s).cpu = s.cpu := by
  unfold advanceDot endLine
  split <;> rfl

theorem renderDot_signals (s : State) :
    (renderDot s).cpu = s.cpu ∧ (renderDot s).video.vblank = s.video.vblank := by
  unfold renderDot visibleDot
  dsimp only
  split_ifs <;> exact ⟨rfl, rfl⟩

theorem preRenderDot_signals (s : State) :
    (preRenderDot s).cpu = s.cpu ∧
      (preRenderDot s).video.vblank = if s.video.dot = 1 then false else s.video.vblank := by
  unfold preRenderDot
  dsimp only
  split_ifs <;> exact ⟨rfl, rfl⟩

theorem verticalBlankDot_signals (s : State) :
    let point := s.video.scanline = 241 ∧ s.video.dot = 1
    (verticalBlankDot s).cpu.nmi = (s.cpu.nmi || (decide point && bitOf s.video.ctrl 7)) ∧
      (verticalBlankDot s).video.vblank = if point then true else s.video.vblank := by
  intro point
  unfold verticalBlankDot
  dsimp only
  split_ifs with here enabled
  · simp [point, here, enabled]
  · simp [point, here, enabled]
  · simp [point, here]

/-- Vertical blank and the NMI latch after the work of a dot (R407, R464, R470). -/
theorem dotWork_signals {s : State} (h : s.video.Ok) :
    (dotWork s).cpu.nmi =
        (s.cpu.nmi || (decide (s.video.scanline = 241 ∧ s.video.dot = 1) && bitOf s.video.ctrl 7)) ∧
      (dotWork s).video.vblank =
        if s.video.scanline = 241 ∧ s.video.dot = 1 then true
        else if s.video.scanline = 261 ∧ s.video.dot = 1 then false
        else s.video.vblank := by
  obtain line | line | line | line := scanline_cases h.scanline
  · obtain ⟨cpu, vblank⟩ := renderDot_signals s
    rw [dotWork_render h line, cpu, vblank]
    grind
  · rw [dotWork_postRender h line]
    grind
  · obtain ⟨nmi, vblank⟩ := verticalBlankDot_signals s
    rw [dotWork_verticalBlank h line, nmi, vblank]
    grind
  · obtain ⟨cpu, vblank⟩ := preRenderDot_signals s
    rw [dotWork_preRender h line, cpu, vblank]
    grind

/-- Settles O44: the flag and the latch are written at the two dots, and the rest is `videoStep_keeps`. -/
theorem verticalBlankRaisesNmi : Obligations.VerticalBlankRaisesNmi := by
  intro s h d t point
  have keeps := videoStep_keeps s
  have step := videoStep_video s
  obtain ⟨nmi, vblank⟩ := dotWork_signals h
  refine ⟨?cpu, ?vblank, fun clears => ?hit, keeps.bus, keeps.mapper, keeps.audio, keeps.sched⟩
  case cpu =>
    have cpu : t.cpu = (dotWork s).cpu := advanceDot_cpu _
    rw [cpu, (dotWork_keeps s).cpu, nmi, bitOf_seven]
  case vblank =>
    rw [step]
    exact vblank
  case hit =>
    have work : dotWork s = s.setVideo { s.video with vblank := false, sprite0Hit := false } := by
      rw [dotWork_preRender h clears.1]
      exact if_pos clears.2
    rw [step, work]
    rfl

end Sys2Proof.Machine
end

section
/-! PROOF. The pixel of a visible dot (R465, R466, R468, R469): the addresses and colours as arithmetic. -/

namespace Sys2Proof.Machine

/-! ### Bits side by side -/

/-- Two vectors whose bits do not overlap: the first has none below bit `k`, the second none from it up. -/
theorem toNat_or_of_lt {w : Nat} {a b : BitVec w} (k : Nat) (high : 2 ^ k ∣ a.toNat)
    (low : b.toNat < 2 ^ k) : (a ||| b).toNat = a.toNat + b.toNat := by
  obtain ⟨m, hm⟩ := high
  rw [BitVec.toNat_or, hm, Nat.two_pow_add_eq_or_of_lt low]

theorem toNat_bitVec {w : Nat} (b : Bool) (h : 0 < w) : (bitVec w b).toNat = bitNat b := by
  have : 1 < 2 ^ w := Nat.one_lt_two_pow (Nat.ne_of_gt h)
  cases b <;> simp [bitVec, bitNat, Nat.mod_eq_of_lt this]

theorem toNat_shiftLeft_of_lt {w : Nat} {a : BitVec w} {k : Nat} (h : a.toNat * 2 ^ k < 2 ^ w) :
    (a <<< k).toNat = a.toNat * 2 ^ k := by
  rw [BitVec.toNat_shiftLeft, Nat.shiftLeft_eq, Nat.mod_eq_of_lt h]

theorem toNat_setWidth_of_lt {w n : Nat} {a : BitVec w} (h : a.toNat < 2 ^ n) :
    (a.setWidth n).toNat = a.toNat := by
  rw [BitVec.toNat_setWidth, Nat.mod_eq_of_lt h]

/-- A number under the mask of the `n` bits from `lo` up. -/
theorem and_mask (x lo n : Nat) : x &&& ((2 ^ n - 1) * 2 ^ lo) = x / 2 ^ lo % 2 ^ n * 2 ^ lo := by
  apply Nat.eq_of_testBit_eq
  intro i
  rw [Nat.testBit_and, Nat.testBit_mul_two_pow, Nat.testBit_mul_two_pow, Nat.testBit_two_pow_sub_one,
    Nat.testBit_mod_two_pow, Nat.testBit_div_two_pow]
  by_cases below : lo ≤ i
  · rw [Nat.sub_add_cancel below]
    simp [below, Bool.and_comm]
  · simp [below]

/-! ### What a dot reads -/

/-- Bit `k` of a byte as a number. -/
def bitAt (b : Byte) (k : Nat) : Nat := b.toNat / 2 ^ k % 2

theorem bitAt_le (b : Byte) (k : Nat) : bitAt b k ≤ 1 := by
  unfold bitAt
  omega

theorem bitOf_iff (b : Byte) (k : Nat) : bitOf b k = true ↔ bitAt b k = 1 := by
  rw [bitOf_eq, decide_eq_true_iff, bitAt]

theorem bitNat_bitOf_byte (b : Byte) (k : Nat) : bitNat (bitOf b k) = bitAt b k := bitNat_bitOf b k

/-- The byte at a video address (R111). -/
def State.videoByte (s : State) (n : Nat) : Byte := videoRead s (BitVec.ofNat 14 n)

/-- The two-bit colour of a pixel of the pattern row at `n` (R465, R468). -/
def State.patternColour (s : State) (n col : Nat) : Nat :=
  2 * bitAt (s.videoByte (n + 8)) col + bitAt (s.videoByte n) col

theorem State.patternColour_lt (s : State) (n col : Nat) : s.patternColour n col < 4 := by
  have := bitAt_le (s.videoByte (n + 8)) col
  have := bitAt_le (s.videoByte n) col
  unfold State.patternColour
  omega

theorem toNat_patternPixel (s : State) (n col : Nat) :
    (patternPixel s (BitVec.ofNat 14 n) col).toNat = s.patternColour n col := by
  have upper : BitVec.ofNat 14 n + 8 = BitVec.ofNat 14 (n + 8) := (BitVec.ofNat_add n 8).symm
  have planes (b c : Bool) : (bitVec 2 b <<< 1 ||| bitVec 2 c).toNat = 2 * bitNat b + bitNat c := by
    cases b <;> cases c <;> rfl
  rw [patternPixel, upper, planes, bitNat_bitOf_byte, bitNat_bitOf_byte]
  rfl

/-! ### The background (R465) -/

/-- A pattern address from its table, its tile and a row that fits below the tile's lowest set bit. -/
theorem patternAddress_eq (table : Bool) (tile : Byte) (row : BitVec 14) (k : Nat)
    (aligned : 2 ^ k ∣ bitNat table * 4096 + tile.toNat * 16) (below : row.toNat < 2 ^ k)
    (h : row.toNat < 32) :
    bitVec 14 table <<< 12 ||| tile.setWidth 14 <<< 4 ||| row =
      BitVec.ofNat 14 (bitNat table * 4096 + tile.toNat * 16 + row.toNat) := by
  have := tile.isLt
  have one : bitNat table ≤ 1 := by cases table <;> decide
  have bit : (bitVec 14 table).toNat = bitNat table := toNat_bitVec table (by decide)
  have width : (tile.setWidth 14).toNat = tile.toNat := toNat_setWidth_of_lt (by omega)
  have high : (bitVec 14 table <<< 12).toNat = bitNat table * 4096 := by
    rw [toNat_shiftLeft_of_lt (by rw [bit]; omega), bit]
    rfl
  have middle : (tile.setWidth 14 <<< 4).toNat = tile.toNat * 16 := by
    rw [toNat_shiftLeft_of_lt (by rw [width]; omega), width]
    rfl
  have upper : (bitVec 14 table <<< 12 ||| tile.setWidth 14 <<< 4).toNat =
      bitNat table * 4096 + tile.toNat * 16 := by
    rw [toNat_or_of_lt 12 (by rw [high]; exact Nat.dvd_mul_left ..) (by rw [middle]; omega), high, middle]
  apply BitVec.eq_of_toNat_eq
  rw [toNat_or_of_lt k (by rwa [upper]) below, upper, BitVec.toNat_ofNat]
  omega

theorem backgroundAddr_eq (s : State) :
    backgroundAddr s =
      BitVec.ofNat 14
        (bitAt s.video.ctrl 4 * 4096 + (s.videoByte (0x2000 + s.video.v.toNat % 4096)).toNat * 16 +
          s.video.v.toNat / 4096) := by
  have top := s.video.v.isLt
  have row : ((field s.video.v 12 3 : BitVec 3).setWidth 14).toNat = s.video.v.toNat / 4096 := by
    rw [BitVec.toNat_setWidth, toNat_field]
    omega
  have cell : (field s.video.v 0 14 &&& 0x0FFF#14 : BitVec 14).toNat = s.video.v.toNat % 4096 := by
    rw [BitVec.toNat_and, toNat_field_zero]
    refine (and_mask _ 0 12).trans ?_
    omega
  have tile : (0x2000#14 ||| (field s.video.v 0 14 &&& 0x0FFF#14)) =
      BitVec.ofNat 14 (0x2000 + s.video.v.toNat % 4096) := by
    apply BitVec.eq_of_toNat_eq
    rw [toNat_or_of_lt 12 (by decide) (by rw [cell]; omega), cell, BitVec.toNat_ofNat, BitVec.toNat_ofNat]
    omega
  unfold backgroundAddr
  dsimp only
  rw [tile, patternAddress_eq _ _ _ 4 (by omega) (by rw [row]; omega) (by rw [row]; omega),
    bitNat_bitOf_byte, row]
  rfl

/-- Two vectors without a common bit. -/
theorem toNat_or_of_disjoint {w : Nat} {a b : BitVec w} (h : a &&& b = 0#w)
    (fits : a.toNat + b.toNat < 2 ^ w) : (a ||| b).toNat = a.toNat + b.toNat := by
  rw [← BitVec.add_eq_or_of_and_eq_zero a b h, BitVec.toNat_add, Nat.mod_eq_of_lt fits]

/-- The address of the attribute byte of the tile at `v` (R465). -/
theorem attributeAddress_eq (v : BitVec 14) :
    0x23C0#14 ||| (v &&& 0x0C00#14) ||| ((v >>> 4) &&& 0x38#14) ||| ((v >>> 2) &&& 0x07#14) =
      BitVec.ofNat 14 (0x23C0 + v.toNat / 1024 % 4 * 1024 + v.toNat / 128 % 8 * 8 + v.toNat / 4 % 8) := by
  have nametable : (v &&& 0x0C00#14).toNat = v.toNat / 1024 % 4 * 1024 := by
    rw [BitVec.toNat_and]
    exact and_mask _ 10 2
  have row : ((v >>> 4) &&& 0x38#14).toNat = v.toNat / 128 % 8 * 8 := by
    rw [BitVec.toNat_and, BitVec.toNat_ushiftRight, Nat.shiftRight_eq_div_pow]
    refine (and_mask _ 3 3).trans ?_
    rw [Nat.div_div_eq_div_mul]
    rfl
  have column : ((v >>> 2) &&& 0x07#14).toNat = v.toNat / 4 % 8 := by
    rw [BitVec.toNat_and, BitVec.toNat_ushiftRight, Nat.shiftRight_eq_div_pow]
    refine (and_mask _ 0 3).trans ?_
    omega
  have disjoint : 0x23C0#14 &&& (v &&& 0x0C00#14) = 0#14 := by
    rw [BitVec.and_comm v, ← BitVec.and_assoc]
    exact BitVec.zero_and
  have base : (0x23C0#14).toNat = 0x23C0 := rfl
  have table : (0x23C0#14 ||| (v &&& 0x0C00#14)).toNat = 0x23C0 + v.toNat / 1024 % 4 * 1024 := by
    rw [toNat_or_of_disjoint disjoint (by rw [nametable, base]; omega), nametable, base]
  have rows : (0x23C0#14 ||| (v &&& 0x0C00#14) ||| ((v >>> 4) &&& 0x38#14)).toNat =
      0x23C0 + v.toNat / 1024 % 4 * 1024 + v.toNat / 128 % 8 * 8 := by
    rw [toNat_or_of_lt 6 (by rw [table]; omega) (by rw [row]; omega), table, row]
  apply BitVec.eq_of_toNat_eq
  rw [toNat_or_of_lt 3 (by rw [rows]; omega) (by rw [column]; omega), rows, column, BitVec.toNat_ofNat]
  omega

/-- Where the palette select of the tile at `v` stands in its attribute byte (R465). -/
theorem attributeShift_eq (v : BitVec 14) :
    (((v >>> 4) &&& 4#14) ||| (v &&& 2#14)).toNat = v.toNat / 64 % 2 * 4 + v.toNat / 2 % 2 * 2 := by
  have down : ((v >>> 4) &&& 4#14).toNat = v.toNat / 64 % 2 * 4 := by
    rw [BitVec.toNat_and, BitVec.toNat_ushiftRight, Nat.shiftRight_eq_div_pow]
    refine (and_mask _ 2 1).trans ?_
    rw [Nat.div_div_eq_div_mul]
    rfl
  have across : (v &&& 2#14).toNat = v.toNat / 2 % 2 * 2 := by
    rw [BitVec.toNat_and]
    exact and_mask _ 1 1
  rw [toNat_or_of_lt 2 (by rw [down]; omega) (by rw [across]; omega), down, across]

theorem toNat_backgroundPalette (s : State) :
    let v := s.video.v.toNat
    (backgroundPalette s).toNat =
      (s.videoByte (0x23C0 + v / 1024 % 4 * 1024 + v / 128 % 8 * 8 + v / 4 % 8)).toNat /
        2 ^ (v / 64 % 2 * 4 + v / 2 % 2 * 2) % 4 := by
  intro v
  have low : (field s.video.v 0 14 : BitVec 14).toNat = v % 16384 := toNat_field_zero _ 14
  have e1 : v % 16384 / 1024 % 4 = v / 1024 % 4 := by omega
  have e2 : v % 16384 / 128 % 8 = v / 128 % 8 := by omega
  have e3 : v % 16384 / 4 % 8 = v / 4 % 8 := by omega
  have e4 : v % 16384 / 64 % 2 = v / 64 % 2 := by omega
  have e5 : v % 16384 / 2 % 2 = v / 2 % 2 := by omega
  unfold backgroundPalette
  dsimp only
  rw [attributeAddress_eq, attributeShift_eq, toNat_field, low, e1, e2, e3, e4, e5]
  rfl

/-- The background colour index of a dot (R465). -/
def State.backgroundColour (s : State) (x : Nat) : Nat :=
  let d := s.video
  let v := d.v.toNat
  if bitAt d.mask 3 = 1 ∧ (bitAt d.mask 1 = 1 ∨ 8 ≤ x) then
    let tile := (s.videoByte (0x2000 + v % 4096)).toNat
    let colour :=
      s.patternColour (bitAt d.ctrl 4 * 4096 + tile * 16 + v / 4096) (7 - (d.fineX.toNat + x) % 8)
    let palettes := (s.videoByte (0x23C0 + v / 1024 % 4 * 1024 + v / 128 % 8 * 8 + v / 4 % 8)).toNat
    if colour = 0 then 0
    else palettes / 2 ^ (v / 64 % 2 * 4 + v / 2 % 2 * 2) % 4 * 4 + colour
  else 0

/-- A palette select and a pixel's colour side by side. -/
theorem toNat_paletteColour (palette pixel : BitVec 2) :
    (palette.setWidth 5 <<< 2 ||| pixel.setWidth 5).toNat = palette.toNat * 4 + pixel.toNat := by
  revert palette pixel
  decide

theorem toNat_backgroundPixel (s : State) (x : Nat) :
    (backgroundPixel s x).toNat = s.backgroundColour x := by
  have transparent (p : BitVec 2) : p = 0 ↔ p.toNat = 0 := BitVec.toNat_inj.symm
  unfold backgroundPixel State.backgroundColour
  simp only [Bool.and_eq_true, Bool.or_eq_true, decide_eq_true_eq, bitOf_iff, transparent,
    backgroundAddr_eq, toNat_patternPixel, fineColumn]
  split
  · split
    · rfl
    · rw [toNat_paletteColour, toNat_backgroundPalette, toNat_patternPixel]
  · rfl

/-! ### The sprites (R466, R468) -/

/-- The height of a sprite (R467) as arithmetic on the control byte's bit 5. -/
theorem spriteHeight_bitAt (ctrl : Byte) : spriteHeight ctrl = if bitAt ctrl 5 = 1 then 16 else 8 := by
  simp only [spriteHeight, bitOf_iff]

/-- The pattern address of a sprite's row, when the row lies inside the sprite (R468). -/
theorem spriteAddr_eq (ctrl tile : Byte) {row : Nat} (inside : row < spriteHeight ctrl) :
    spriteAddr ctrl tile row =
      BitVec.ofNat 14
        (if spriteHeight ctrl = 8 then bitAt ctrl 3 * 4096 + tile.toNat * 16 + row
          else tile.toNat % 2 * 4096 + tile.toNat / 2 * 2 * 16 + if 8 ≤ row then row + 8 else row) := by
  unfold spriteAddr
  split
  case isTrue small =>
    have fits : (BitVec.ofNat 14 row).toNat = row := Nat.mod_eq_of_lt (by omega)
    rw [BitVec.ofInt_natCast, patternAddress_eq _ _ _ 4 (by omega) (by omega) (by omega), fits,
      bitNat_bitOf_byte]
  case isFalse tall =>
    have le : spriteHeight ctrl ≤ 16 := by
      unfold spriteHeight
      split <;> decide
    have even : (tile &&& 0xFE#8).toNat = tile.toNat / 2 * 2 := by
      have := tile.isLt
      rw [BitVec.toNat_and]
      refine (and_mask _ 1 7).trans ?_
      omega
    have line : (if 8 ≤ (row : Int) then 16 + ((row : Int) - 8) else (row : Int)) =
        ((if 8 ≤ row then row + 8 else row : Nat) : Int) := by
      split <;> split <;> omega
    have lt : (if 8 ≤ row then row + 8 else row) < 32 := by
      split <;> omega
    have fits : (BitVec.ofNat 14 (if 8 ≤ row then row + 8 else row)).toNat =
        if 8 ≤ row then row + 8 else row := Nat.mod_eq_of_lt (by omega)
    rw [line, BitVec.ofInt_natCast,
      patternAddress_eq _ _ _ 5 (by rw [even]; omega) (by rw [fits]; exact lt) (by rw [fits]; exact lt),
      fits, even, bitNat_bitOf_byte, bitAt, Nat.pow_zero, Nat.div_one]

/-- The row of sprite `i` at scanline `y` (R468), counted from the bottom if the sprite is flipped. -/
def State.spriteRow (s : State) (y i : Nat) : Nat :=
  let r := y - 1 - (oamByte s.video i 0).toNat
  if bitAt (oamByte s.video i 2) 7 = 1 then spriteHeight s.video.ctrl - 1 - r else r

/-- The colour sprite `i` shows at (x, y), 0 for none (R468). -/
def State.spriteColour (s : State) (x y i : Nat) : Nat :=
  let d := s.video
  let left := (oamByte d i 3).toNat
  let row := s.spriteRow y i
  let col := if bitAt (oamByte d i 2) 6 = 1 then x - left else 7 - (x - left)
  let tile := (oamByte d i 1).toNat
  if left ≤ x ∧ x < left + 8 then
    s.patternColour
      (if spriteHeight d.ctrl = 8 then bitAt d.ctrl 3 * 4096 + tile * 16 + row
        else tile % 2 * 4096 + tile / 2 * 2 * 16 + (if 8 ≤ row then row + 8 else row))
      col
  else 0

theorem State.spriteColour_lt (s : State) (x y i : Nat) : s.spriteColour x y i < 4 := by
  unfold State.spriteColour
  dsimp only
  split
  · exact s.patternColour_lt _ _
  · decide

/-- The opaque pixel of sprite `i` (R468), if its colour is not 0. -/
def State.spritePixelOf (s : State) (x y i : Nat) : SpritePixel :=
  { colour := BitVec.ofNat 5 (16 + (oamByte s.video i 2).toNat % 4 * 4 + s.spriteColour x y i)
    front := !bitOf (oamByte s.video i 2) 5
    index := i }

/-- A sprite palette select and a pixel's colour side by side, in the upper half of the palette (R468). -/
theorem spritePaletteColour_eq (attr : Byte) (pixel : BitVec 2) :
    0x10#5 ||| (field attr 0 2 : BitVec 2).setWidth 5 <<< 2 ||| pixel.setWidth 5 =
      BitVec.ofNat 5 (16 + attr.toNat % 4 * 4 + pixel.toNat) := by
  have select : (field attr 0 2 : BitVec 2) = BitVec.ofNat 2 (attr.toNat % 4) := by
    apply BitVec.eq_of_toNat_eq
    rw [toNat_field_zero, BitVec.toNat_ofNat]
    omega
  have lt : attr.toNat % 4 < 4 := Nat.mod_lt _ (by decide)
  rw [select]
  generalize attr.toNat % 4 = n at lt ⊢
  revert n pixel
  decide

/-- What a covering sprite shows at a dot (R468): its pixel, unless the colour is 0. -/
theorem spriteAt_eq (s : State) {x y i : Nat}
    (covers : (oamByte s.video i 0).toNat + 1 ≤ y ∧
      y < (oamByte s.video i 0).toNat + 1 + spriteHeight s.video.ctrl) :
    spriteAt s x y i = if s.spriteColour x y i = 0 then none else some (s.spritePixelOf x y i) := by
  have column : (oamByte s.video i 3).toNat ≤ x ∧ x - (oamByte s.video i 3).toNat < 8 ↔
      (oamByte s.video i 3).toNat ≤ x ∧ x < (oamByte s.video i 3).toNat + 8 := by omega
  have row : (if bitAt (oamByte s.video i 2) 7 = 1 then
        (spriteHeight s.video.ctrl : Int) - 1 - ((y : Int) - 1 - (oamByte s.video i 0).toNat)
      else (y : Int) - 1 - (oamByte s.video i 0).toNat) = s.spriteRow y i := by
    unfold State.spriteRow
    dsimp only
    split <;> omega
  have inside : s.spriteRow y i < spriteHeight s.video.ctrl := by
    unfold State.spriteRow
    dsimp only
    split <;> omega
  have transparent (p : BitVec 2) : p = 0 ↔ p.toNat = 0 := BitVec.toNat_inj.symm
  unfold spriteAt
  dsimp only
  simp only [column, row, spriteAddr_eq _ _ inside, transparent, spritePaletteColour_eq, toNat_patternPixel,
    bitOf_iff]
  by_cases dot : (oamByte s.video i 3).toNat ≤ x ∧ x < (oamByte s.video i 3).toNat + 8
  · have colour : s.spriteColour x y i = s.patternColour _ _ := if_pos dot
    rw [if_pos dot, ← colour]
    rfl
  · have colour : s.spriteColour x y i = 0 := if_neg dot
    rw [if_neg dot, if_pos colour]

/-- The first opaque sprite of a list is the first whose colour is not 0 (R468). -/
theorem firstSprite_eq (s : State) (x y : Nat) {l : List Nat}
    (shown : ∀ i ∈ l, spriteAt s x y i =
      if s.spriteColour x y i = 0 then none else some (s.spritePixelOf x y i)) :
    firstSprite s x y l =
      (l.find? fun i => decide (s.spriteColour x y i ≠ 0)).map (s.spritePixelOf x y) := by
  induction l with
  | nil => rfl
  | cons i l ih =>
    have rest := ih fun j hj => shown j (List.mem_cons_of_mem i hj)
    rw [firstSprite, shown i List.mem_cons_self, List.find?_cons]
    by_cases clear : s.spriteColour x y i = 0
    · simp [clear, rest]
    · simp [clear]

/-- The sprite that wins a dot (R468): the first selected one with an opaque pixel there, if sprites are
shown. -/
def State.winner (s : State) (x y : Nat) : Option Nat :=
  if bitAt s.video.mask 4 = 1 ∧ (bitAt s.video.mask 2 = 1 ∨ 8 ≤ x) then
    s.video.lineSprites.find? fun i => decide (s.spriteColour x y i ≠ 0)
  else none

/-- Every selected sprite covers scanline `y` (R467). -/
def State.SpritesCover (s : State) (y : Nat) : Prop :=
  ∀ i ∈ s.video.lineSprites, (oamByte s.video i 0).toNat + 1 ≤ y ∧
    y < (oamByte s.video i 0).toNat + 1 + spriteHeight s.video.ctrl

theorem spritePixel_eq {s : State} {y : Nat} (covers : s.SpritesCover y) (x : Nat) :
    spritePixel s x y = (s.winner x y).map (s.spritePixelOf x y) := by
  unfold spritePixel State.winner
  simp only [Bool.and_eq_true, Bool.or_eq_true, decide_eq_true_eq, bitOf_iff]
  split
  · exact firstSprite_eq s x y fun i hi => spriteAt_eq s (covers i hi)
  · rfl

/-! ### The winning colour and the hit flag (R469) -/

/-- The palette index of a dot (R469): the winning sprite's over a transparent background or in front of an
opaque one, else the background's. -/
def State.paletteIndex (s : State) (x y : Nat) : Nat :=
  match s.winner x y with
  | none => s.backgroundColour x
  | some i =>
    if s.backgroundColour x = 0 ∨ bitAt (oamByte s.video i 2) 5 = 0 then
      16 + (oamByte s.video i 2).toNat % 4 * 4 + s.spriteColour x y i
    else s.backgroundColour x

theorem backgroundPixel_eq_zero (s : State) (x : Nat) : backgroundPixel s x = 0 ↔ s.backgroundColour x = 0 := by
  rw [← toNat_backgroundPixel]
  exact BitVec.toNat_inj.symm

theorem toNat_resolvePriority (s : State) (x y : Nat) :
    (resolvePriority (backgroundPixel s x) ((s.winner x y).map (s.spritePixelOf x y))).toNat =
      s.paletteIndex x y := by
  unfold State.paletteIndex
  cases s.winner x y with
  | none => exact toNat_backgroundPixel s x
  | some i =>
    have colour : (s.spritePixelOf x y i).colour.toNat =
        16 + (oamByte s.video i 2).toNat % 4 * 4 + s.spriteColour x y i := by
      have := s.spriteColour_lt x y i
      exact Nat.mod_eq_of_lt (by omega)
    have front : (s.spritePixelOf x y i).front = true ↔ bitAt (oamByte s.video i 2) 5 = 0 := by
      have le := bitAt_le (oamByte s.video i 2) 5
      rw [State.spritePixelOf, Bool.not_eq_true', ← Bool.not_eq_true, bitOf_iff]
      omega
    simp only [Option.map_some, resolvePriority, backgroundPixel_eq_zero, front]
    split_ifs <;> simp_all [toNat_backgroundPixel]

theorem spriteZeroHit_eq (s : State) (x y : Nat) :
    spriteZeroHit s.video.mask (backgroundPixel s x) ((s.winner x y).map (s.spritePixelOf x y)) =
      decide (s.winner x y = some 0 ∧ s.backgroundColour x ≠ 0 ∧ bitAt s.video.mask 3 = 1 ∧
        bitAt s.video.mask 4 = 1) := by
  cases s.winner x y with
  | none => simp [spriteZeroHit]
  | some i =>
    rw [Bool.eq_iff_iff, decide_eq_true_iff]
    have opaque_iff : backgroundPixel s x ≠ 0 ↔ s.backgroundColour x ≠ 0 :=
      not_congr (backgroundPixel_eq_zero s x)
    simp only [Option.map_some, spriteZeroHit, State.spritePixelOf, Bool.and_eq_true, decide_eq_true_eq,
      bitOf_iff, opaque_iff, Option.some.injEq, and_assoc]

/-- The colour byte of an index under the grayscale bit, and its six low bits (R469). -/
theorem field_colourOf (s : State) (idx : BitVec 5) :
    let colour := (s.videoByte (0x3F00 + idx.toNat)).toNat
    field (colourOf s idx) 0 6 =
      BitVec.ofNat 6 (if bitAt s.video.mask 0 = 1 then colour / 16 % 4 * 16 else colour % 64) := by
  intro colour
  have address : 0x3F00#14 + idx.setWidth 14 = BitVec.ofNat 14 (0x3F00 + idx.toNat) := by
    rw [BitVec.ofNat_add, BitVec.ofNat_toNat]
  have byte : videoRead s (0x3F00#14 + idx.setWidth 14) = s.videoByte (0x3F00 + idx.toNat) := by
    rw [address]
    rfl
  have gray (c : Byte) : (c &&& 0x30#8).toNat = c.toNat / 16 % 4 * 16 := by
    rw [BitVec.toNat_and]
    exact and_mask _ 4 2
  apply BitVec.eq_of_toNat_eq
  unfold colourOf
  simp only [byte, bitOf_iff]
  rw [toNat_field_zero, BitVec.toNat_ofNat]
  split
  · rw [gray]
  · exact (Nat.mod_mod _ _).symm

/-! ### The dot -/

section
variable {s : State} (h : s.video.Ok)
include h

theorem dotWork_visible (visible : s.video.scanline < 240 ∧ 1 ≤ s.video.dot ∧ s.video.dot ≤ 256) :
    dotWork s = visibleDot s (s.video.dot - 1) s.video.scanline := by
  rw [dotWork_render h visible.1]
  exact if_pos visible.2

/-- A dot that is not visible gives no pixel, and touches the hit flag only where R464 clears it. -/
theorem dotWork_notVisible (hidden : ¬(s.video.scanline < 240 ∧ 1 ≤ s.video.dot ∧ s.video.dot ≤ 256)) :
    (dotWork s).out.pixel = s.out.pixel ∧
      (dotWork s).video.sprite0Hit =
        if s.video.scanline = 261 ∧ s.video.dot = 1 then false else s.video.sprite0Hit := by
  obtain line | line | line | line := scanline_cases h.scanline
  · have dot : ¬(1 ≤ s.video.dot ∧ s.video.dot ≤ 256) := fun dot => hidden ⟨line, dot⟩
    rw [dotWork_render h line, if_neg (by omega)]
    unfold renderDot
    dsimp only
    rw [if_neg dot]
    split_ifs <;> exact ⟨rfl, rfl⟩
  · rw [dotWork_postRender h line, if_neg (by omega)]
    exact ⟨rfl, rfl⟩
  · rw [dotWork_verticalBlank h line, if_neg (by omega)]
    unfold verticalBlankDot
    dsimp only
    split_ifs <;> exact ⟨rfl, rfl⟩
  · simp only [dotWork_preRender h line, line, true_and]
    unfold preRenderDot
    dsimp only
    split_ifs <;> exact ⟨rfl, rfl⟩

end

/-- The pixel and the hit flag of a visible dot (R469), where the selected sprites cover the line. -/
theorem visibleDot_eq {s : State} {y : Nat} (covers : s.SpritesCover y) (x : Nat) :
    let colour := (s.videoByte (0x3F00 + s.paletteIndex x y)).toNat
    let shown := if bitAt s.video.mask 0 = 1 then colour / 16 % 4 * 16 else colour % 64
    (visibleDot s x y).out.pixel =
        some { x := x, y := y, rgba := Config.paletteRgba (BitVec.ofNat 6 shown) } ∧
      (visibleDot s x y).video.sprite0Hit =
        (s.video.sprite0Hit || decide (s.winner x y = some 0 ∧ s.backgroundColour x ≠ 0 ∧
          bitAt s.video.mask 3 = 1 ∧ bitAt s.video.mask 4 = 1)) := by
  intro colour shown
  have index := toNat_resolvePriority s x y
  have hit := spriteZeroHit_eq s x y
  have rgba := field_colourOf s (resolvePriority (backgroundPixel s x) (spritePixel s x y))
  rw [← spritePixel_eq covers] at index hit
  rw [index] at rgba
  exact ⟨by simp only [visibleDot, State.setOut, rgba]; rfl, by rw [← hit]; rfl⟩

/-- Settles O60: a visible dot by the rules of the background, the sprites and the palette, and the dots of
the four kinds of scanline for what gives no pixel. -/
theorem visibleDotShowsPixel : Obligations.VisibleDotShowsPixel := by
  intro s h d t x y visible bit byteAt pattern oam height covers v bg spriteColour winner index colour shown hit
  have tall : height = spriteHeight s.video.ctrl := (spriteHeight_bitAt _).symm
  have sprites : spriteColour = s.spriteColour x y := by
    funext i
    simp only [spriteColour, tall]
    rfl
  have wins : winner = s.winner x y := by
    simp only [winner, sprites]
    rfl
  have shows : index = s.paletteIndex x y := by
    simp only [index, wins, sprites]
    rfl
  have out := videoStep_out s
  have signals : t.out.sample = s.out.sample ∧ t.draws = s.draws :=
    ⟨by rw [show t.out = _ from out], (videoStep_keeps s).draws⟩
  have pixel : t.out.pixel = (dotWork s).out.pixel := by rw [show t.out = _ from out]
  have flag : t.video.sprite0Hit = (dotWork s).video.sprite0Hit := by
    rw [show t.video = _ from videoStep_video s, Video.advanced_eq]
  rw [pixel, flag]
  by_cases seen : visible
  · have cover : s.SpritesCover y := fun i hi => tall ▸ covers seen i hi
    obtain ⟨hpixel, hflag⟩ := visibleDot_eq cover x
    have early : ¬(d.scanline = 261 ∧ d.dot = 1) := fun last => Nat.ne_of_lt (Nat.lt_trans seen.1 (by decide)) last.1
    rw [dotWork_visible h seen, hpixel, hflag, if_pos seen, if_neg early]
    simp only [hit, seen, true_and, shown, colour, shows, wins]
    exact ⟨rfl, rfl, signals⟩
  · obtain ⟨hpixel, hflag⟩ := dotWork_notVisible h seen
    rw [hpixel, hflag, if_neg seen, decide_eq_false (fun won : hit => seen won.1), Bool.or_false]
    exact ⟨rfl, rfl, signals⟩

end Sys2Proof.Machine
end

section
/-! PROOF. The registers of the Audio Engine (R508, R510, R516, R519, R523, R539, R540). -/

namespace Sys2Proof.Machine

/-! ### The fields of a written byte -/

theorem field_eq_ofNat {w : Nat} (v : BitVec w) (lo n : Nat) :
    field v lo n = BitVec.ofNat n (v.toNat / 2 ^ lo) := by
  apply BitVec.eq_of_toNat_eq
  rw [toNat_field, BitVec.toNat_ofNat]

/-- The low byte of an 11-bit period replaced (R510). -/
theorem periodLow_eq (period : BitVec 11) (v : Byte) :
    setField period 0 v = BitVec.ofNat 11 (period.toNat / 256 * 256 + v.toNat) := by
  have := v.isLt
  have := period.isLt
  apply BitVec.eq_of_toNat_eq
  rw [toNat_setField period v (by decide), BitVec.toNat_ofNat]
  omega

/-- The three high bits of an 11-bit period replaced (R510). -/
theorem periodHigh_eq (period : BitVec 11) (v : Byte) :
    setField period 8 (field v 0 3) = BitVec.ofNat 11 (v.toNat % 8 * 256 + period.toNat % 256) := by
  have := period.isLt
  apply BitVec.eq_of_toNat_eq
  rw [toNat_setField period _ (by decide), toNat_field_zero, BitVec.toNat_ofNat]
  omega

/-- The load index is the five high bits of the byte (R508). -/
theorem loadLength_eq (enabled : Bool) (old : Nat) (v : Byte) :
    loadLength enabled old v = if enabled then lengthTable.getD (v.toNat / 8) 0 else old := by
  have := v.isLt
  have index : (field v 3 5 : BitVec 5).toNat = v.toNat / 8 := by
    rw [toNat_field]
    omega
  rw [loadLength, lengthOf, index]

/-- The DMC's control write (R523): with its interrupt disabled it also releases its source. -/
theorem busWrite_dmcControl (s : State) (v : Byte) :
    busWrite s 0x4010#16 v =
      (s.setAudio { s.audio with dmc := s.audio.dmc.writeReg 0 v }).setIrq
        { s.cpu.irq with dmc := bitOf v 7 && s.cpu.irq.dmc } := by
  change writeChannel s 16#5 v = _
  unfold writeChannel
  cases bitOf v 7 <;> rfl

/-- Settles O46: the four registers of each channel, with the fields of the byte as arithmetic. -/
theorem audioRegisterWrites : Obligations.AudioRegisterWrites := by
  intro s v table n flag loaded low high volume restart pulse a w
  have flags (k : Nat) : bitOf v k = flag k := bitOf_eq v k
  have fields (k : Nat) : field v 0 k = BitVec.ofNat k n := field_zero_eq_ofNat v k
  have lengths (enabled : Bool) (old : Nat) : loadLength enabled old v = loaded enabled old :=
    loadLength_eq enabled old v
  have lows (period : BitVec 11) : setField period 0 v = low period := periodLow_eq period v
  have highs (period : BitVec 11) : setField period 8 (field v 0 3) = high period := periodHigh_eq period v
  have volumes (e : Envelope) : e.configure v = volume e := by rw [Envelope.configure, flags, fields]
  have pulse0 (p : Pulse) : p.writeReg 0 v = pulse p 0 := by
    simp only [Pulse.writeReg, flags, volumes, field_eq_ofNat]
    rfl
  have pulse1 (p : Pulse) : p.writeReg 1 v = pulse p 1 := by
    simp only [Pulse.writeReg, flags, fields, field_eq_ofNat v 4 3]
    rfl
  have pulse2 (p : Pulse) : p.writeReg 2 v = pulse p 2 := by
    simp only [Pulse.writeReg, lows]
    rfl
  have pulse3 (p : Pulse) : p.writeReg 3 v = pulse p 3 := by
    simp only [Pulse.writeReg, highs, lengths]
    rfl
  refine ⟨⟨?_, ?_, ?_, ?_⟩, ⟨?_, ?_, ?_, ?_⟩, ⟨?_, rfl, ?_, ?_⟩, ⟨?_, rfl, ?_, ?_⟩, ?_, ?_, ?_, ?_⟩
  · rw [← pulse0]; rfl
  · rw [← pulse1]; rfl
  · rw [← pulse2]; rfl
  · rw [← pulse3]; rfl
  · rw [← pulse0]; rfl
  · rw [← pulse1]; rfl
  · rw [← pulse2]; rfl
  · rw [← pulse3]; rfl
  · rw [← flags, ← fields]; rfl
  · rw [← lows]; rfl
  · rw [← highs, ← lengths]; rfl
  · rw [← flags, ← volumes]; rfl
  · rw [← flags, ← fields]; rfl
  · rw [← lengths]; rfl
  · rw [← fields, ← flags 7, ← flags 6]
    exact busWrite_dmcControl s v
  · rw [← fields]; rfl
  · rw [← sampleStart_eq]; rfl
  · rw [← sampleLength_eq]; rfl

/-- The bits of the status byte side by side (R540): bit 5 is not used. -/
theorem audioStatusByte_eq (dmcIrq frameIrq dmc noise triangle pulse2 pulse1 : Bool) :
    bitVec 8 dmcIrq <<< 7 ||| bitVec 8 frameIrq <<< 6 ||| bitVec 8 dmc <<< 4 ||| bitVec 8 noise <<< 3 |||
        bitVec 8 triangle <<< 2 ||| bitVec 8 pulse2 <<< 1 ||| bitVec 8 pulse1 =
      BitVec.ofNat 8
        ((if dmcIrq then 128 else 0) + (if frameIrq then 64 else 0) + (if dmc then 16 else 0) +
          (if noise then 8 else 0) + (if triangle then 4 else 0) + (if pulse2 then 2 else 0) +
          (if pulse1 then 1 else 0)) := by
  revert dmcIrq frameIrq dmc noise triangle pulse2 pulse1
  decide

/-- The sample reader after a write of channel enable (R539): stopped, restarted if it had finished, or
left alone. -/
theorem enabledDmc_eq (d : Dmc) (on : Bool) :
    ({ (if on = false then { d with remaining := 0 } else if d.remaining = 0 then d.restart else d) with
        irqFlag := false } : Dmc) =
      { d with
        irqFlag := false
        remaining := if on then (if d.remaining = 0 then d.startLen.toNat else d.remaining) else 0
        curAddr := if on && decide (d.remaining = 0) then d.startAddr else d.curAddr } := by
  cases on with
  | false => rfl
  | true =>
    by_cases finished : d.remaining = 0
    · simp [finished, Dmc.restart]
    · simp [finished]

/-- Settles O47: the status byte bit by bit, and channel enable with the sample reader's three cases. -/
theorem audioStatusRegister : Obligations.AudioStatusRegister := by
  intro s v a r t on enabled
  have bits (k : Nat) : bitOf v k = enabled k := bitOf_eq v k
  refine ⟨audioStatusByte_eq .., rfl, rfl, rfl, rfl, rfl, ?_, rfl⟩
  change (writeChannelEnable s v).audio = _
  unfold writeChannelEnable setDmcIrq
  simp only [State.setIrq_audio, State.setAudio_audio, enabledDmc_eq, bits]
  rfl

end Sys2Proof.Machine
end

section
/-! PROOF. The DMC reader (R525, R526) and the frame sequencer (R504, R505). -/

namespace Sys2Proof.Machine

/-! ### The DMC reader -/

/-- A sample byte in the ROM window (R525): its read has no effect of its own. -/
theorem busRead_skipCycles_rom {s : State} (rom : 0x8000 ≤ s.audio.dmc.curAddr.toNat) (n : Nat) :
    busRead (skipCycles s n) s.audio.dmc.curAddr =
      { value := (busRead s s.audio.dmc.curAddr).value, state := skipCycles s n } := by
  rw [busRead_rom rom, busRead_rom rom]
  rfl

/-- The end of a sample (R526): a restart, or the interrupt if it is enabled, or nothing. -/
theorem endOfSample_eq (s : State) :
    let d := s.audio.dmc
    let raise := !d.loop && d.irqEn
    endOfSample s =
      (s.setAudio
          { s.audio with
            dmc :=
              { d with
                remaining := if d.loop then d.startLen.toNat else d.remaining
                curAddr := if d.loop then d.startAddr else d.curAddr
                irqFlag := d.irqFlag || raise } }).setIrq
        { s.cpu.irq with dmc := s.cpu.irq.dmc || raise } := by
  intro d raise
  unfold endOfSample
  dsimp only
  split
  case isTrue loops =>
    have quiet : raise = false := by simp [raise, d, loops]
    rw [quiet, Bool.or_false, Bool.or_false]
    rfl
  case isFalse stops =>
    split
    case isTrue enabled =>
      have raises : raise = true := by simp [raise, d, stops, enabled]
      rw [raises, Bool.or_true, Bool.or_true]
      rfl
    case isFalse disabled =>
      have quiet : raise = false := by simp [raise, d, disabled]
      rw [quiet, Bool.or_false, Bool.or_false]
      rfl

/-- The state with one sample byte taken (R525): the processor stalled, the buffer filled, the cursor moved. -/
def State.sampleTaken (s : State) : State :=
  let d := s.audio.dmc
  (skipCycles s s.params.dmcStall).setAudio
    { s.audio with
      dmc :=
        { d with
          buffer := some (busRead s d.curAddr).value, curAddr := nextSampleAddr d.curAddr
          remaining := d.remaining - 1 } }

/-- A sample byte fetched from the ROM window, and after the last one the end of the sample (R525). -/
theorem fetchSample_rom {s : State} (rom : 0x8000 ≤ s.audio.dmc.curAddr.toNat) :
    fetchSample s = if s.audio.dmc.remaining - 1 = 0 then endOfSample s.sampleTaken else s.sampleTaken := by
  unfold fetchSample
  dsimp only
  rw [busRead_skipCycles_rom rom]
  rfl

theorem dmcReader_idle {s : State} (h : s.audio.dmc.buffer ≠ none ∨ s.audio.dmc.remaining = 0) :
    dmcReader s = .next s := by
  refine if_neg fun ⟨empty, bytes⟩ => ?_
  obtain full | none := h
  · exact full empty
  · exact Nat.ne_of_gt bytes none

theorem dmcReader_fetch {s : State} (empty : s.audio.dmc.buffer = none) (bytes : 0 < s.audio.dmc.remaining) :
    dmcReader s =
      if 0x10000 < s.audio.dmc.curAddr.toNat + s.audio.dmc.remaining then
        .refused (.dmcSamplePastEnd s.audio.dmc.curAddr s.audio.dmc.remaining)
      else .next (fetchSample s) :=
  if_pos ⟨empty, bytes⟩

/-- Settles O50: the reader's three cases, the fetch with and without the end of the sample. -/
theorem sampleReaderFetches : Obligations.SampleReaderFetches := by
  intro s d
  refine ⟨dmcReader_idle, fun empty bytes past => ?refused, fun empty bytes inside rom => ?fetched⟩
  case refused => rw [dmcReader_fetch empty bytes, if_pos past]
  case fetched =>
    refine ⟨fetchSample s, ?_, ?_⟩
    · rw [dmcReader_fetch empty bytes, if_neg (Nat.not_lt.2 inside)]
    · intro last raise
      have pos : 0 < s.audio.dmc.remaining := bytes
      rw [fetchSample_rom rom]
      by_cases ends : s.audio.dmc.remaining = 1
      · have yes : last = true := decide_eq_true ends
        rw [if_pos (by omega), endOfSample_eq]
        simp only [raise, yes, Bool.true_and]
        exact ⟨rfl, rfl, rfl, rfl, rfl⟩
      · have no : last = false := decide_eq_false ends
        rw [if_neg (by omega)]
        simp only [raise, no, Bool.false_and, Bool.or_false]
        exact ⟨rfl, rfl, rfl, rfl, rfl⟩

/-! ### The frame sequencer -/

/-- What a cycle clocks, by R504's table: steps 1 and 3 the quarter-frame units, step 2 and the last both. -/
theorem frameEvent_clocks (r : Region) (mode5 : Bool) (cycle : Nat) (a : Audio) :
    (frameEvent r mode5 cycle).clocks a =
      if cycle = (frameStepCycles r).getD 1 0 ∨ cycle = lastStepCycle r mode5 then halfClock (quarterClock a)
      else if cycle = (frameStepCycles r).getD 0 0 ∨ cycle = (frameStepCycles r).getD 2 0 then quarterClock a
      else a := by
  unfold frameEvent lastStepCycle
  cases r <;> cases mode5 <;> simp only [frameStepCycles, List.getD_cons_zero, List.getD_cons_succ] <;>
    grind [FrameEvent.clocks]

/-- The reader in the ROM window raises no frame interrupt and clears none (R525, R540). -/
theorem dmcReader_rom {s u : State} (h : dmcReader s = .next u) (rom : 0x8000 ≤ s.audio.dmc.curAddr.toNat) :
    u.audio.frame = s.audio.frame ∧ u.cpu.irq.frame = s.cpu.irq.frame := by
  unfold dmcReader at h
  dsimp only at h
  split at h
  · split at h
    · cases h
    · cases h
      rw [fetchSample_rom rom]
      split
      · rw [endOfSample_eq]
        exact ⟨rfl, rfl⟩
      · exact ⟨rfl, rfl⟩
  · cases h
    exact ⟨rfl, rfl⟩

theorem clockTimers_curAddr (a : Audio) (r : Region) :
    (clockTimers a r).dmc.curAddr = a.dmc.curAddr := by
  have output (d : Dmc) : d.clockOutput.curAddr = d.curAddr := by
    unfold Dmc.clockOutput
    dsimp only
    split
    · split <;> rfl
    · rfl
  have timer (d : Dmc) : (d.clockTimer r).curAddr = d.curAddr := by
    unfold Dmc.clockTimer
    split
    · exact output d
    · rfl
  unfold clockTimers
  dsimp only
  split
  · exact timer a.dmc
  · rfl

/-- A write of the frame counter's control register leaves the processor all but the source (R505). -/
theorem writeFrameControl_cpu (s : State) (v : Byte) :
    (writeFrameControl s v).cpu = { s.cpu with irq := (writeFrameControl s v).cpu.irq } := by
  unfold writeFrameControl
  dsimp only
  split <;> rfl

/-- Settles O48: a step by what the reader leaves and the sequencer's event, and the control write. -/
theorem frameSequencerInterrupts : Obligations.FrameSequencerInterrupts := by
  unfold Obligations.FrameSequencerInterrupts
  intro stepCycle
  have table (r : Region) (k : Nat) : stepCycle r k = (frameStepCycles r).getD (k - 1) 0 := by cases r <;> rfl
  refine ⟨fun s t h => ?step, fun s v => ?write⟩
  case step =>
    intro f at_ last
    obtain ⟨u, reads, rfl⟩ := audioStep_next h
    refine ⟨u, reads, ?_⟩
    intro raised clocked
    obtain ⟨⟨flag, frame⟩, cart⟩ := dmcReader_keeps reads
    rw [State.setAudio_audio, clockTimers_frame] at frame
    rw [State.setAudio_cart] at cart
    have lasts : last ↔ f.cycle = lastStepCycle s.cart.region f.mode5 := by
      simp only [last, at_, table, lastStepCycle]
      cases f.mode5 <;> simp
    have event : u.frameEvent = frameEvent s.cart.region f.mode5 f.cycle := by
      rw [State.frameEvent, cart, frame]
    have ends : u.frameEvent = .last ↔ last := by rw [event, frameEvent_eq_last, lasts]
    have raises : u.raisesFrameIrq = raised := by
      simp only [State.raisesFrameIrq, ends, frame]
      rfl
    have clocks : u.frameEvent.clocks u.audio = clocked := by
      simp only [event, frameEvent_clocks, clocked, at_, table, lasts]
    have cycle : nextCycle u.frameEvent u.audio.frame.cycle = if last then 0 else f.cycle + 1 := by
      simp only [nextCycle, ends, frame]
      rfl
    have counted (n : Nat) (b : Bool) :
        { u.audio.frame with cycle := n, irqFlag := b } = { f with cycle := n, irqFlag := b } := by rw [frame]
    have finish := finishAudioStep_eq u
    rw [clocks, raises, cycle, counted] at finish
    have flags : (finishAudioStep u).audio.frame.irqFlag = (u.audio.frame.irqFlag || raised) := by
      rw [finish]
      rfl
    have lines : (finishAudioStep u).cpu.irq.frame = (u.cpu.irq.frame || raised) := by
      rw [finish]
      rfl
    refine ⟨congrArg State.audio finish, congrArg State.cpu finish, ?_, ?_, ?_, fun rom => ?_⟩
    · rw [finish]; rfl
    · rw [finish]; rfl
    · rw [finish]; rfl
    · obtain ⟨same, line⟩ := dmcReader_rom reads (by rwa [State.setAudio_audio, clockTimers_curAddr])
      rw [State.setAudio_audio, clockTimers_frame] at same
      rw [flags, lines, same, line]
      exact ⟨rfl, rfl⟩
  case write =>
    intro t inhibit
    have bits (k : Nat) : bitOf v k = decide (v.toNat / 2 ^ k % 2 = 1) := bitOf_eq v k
    have top : bitOf v 7 = decide (128 ≤ v.toNat) := by
      have := v.isLt
      rw [bits, decide_eq_decide]
      omega
    have low : bitOf v 6 = inhibit := bits 6
    obtain ⟨frame, -, irq⟩ := writeFrameControl_irq s v
    have audio := writeFrameControl_audio s v
    have cpu := writeFrameControl_cpu s v
    rw [irq] at cpu
    rw [top, low] at frame
    rw [low] at cpu
    have unit : t.audio = _ := audio
    rw [top, low] at unit
    refine ⟨frame, cpu, fun small => ?_, fun big => ?_⟩
    · rw [unit, if_neg (by rw [decide_eq_true_iff]; omega)]
    · rw [show t.audio.frame = _ from frame, unit, if_pos (decide_eq_true big)]

end Sys2Proof.Machine
end

section
/-! PROOF. The clocks of the audio units (R503, R506, R509, R514) and of the timers (R511, R515, R517, R521,
R522) as arithmetic. -/

namespace Sys2Proof.Machine

theorem toNat_sub_one {n : Nat} {b : BitVec n} (h : 0 < b.toNat) : (b - 1).toNat = b.toNat - 1 := by
  have lt := b.isLt
  obtain _ | n := n
  · omega
  · have one : (1 : BitVec (n + 1)).toNat = 1 := by simp
    rw [BitVec.toNat_sub_of_le (BitVec.le_def.2 (by rwa [one])), one]

theorem add_one_eq_ofNat {n : Nat} (b : BitVec n) : b + 1 = BitVec.ofNat n (b.toNat + 1) := by
  apply BitVec.eq_of_toNat_eq
  simp

/-- A counter of vectors is at 0 when its number is. -/
theorem eq_zero_iff_toNat {n : Nat} (b : BitVec n) : b = 0 ↔ b.toNat = 0 := by
  rw [← BitVec.toNat_inj, toNat_zero_field]

/-! ### The timers -/

theorem Pulse.clockTimer_eq (p : Pulse) :
    p.clockTimer =
      if p.timer.toNat = 0 then { p with timer := p.period, seq := BitVec.ofNat 3 (p.seq.toNat + 1) }
      else { p with timer := p.timer - 1 } := by
  simp only [Pulse.clockTimer, eq_zero_iff_toNat, add_one_eq_ofNat]

theorem Triangle.clockTimer_eq (t : Triangle) :
    t.clockTimer =
      if t.timer.toNat = 0 then
        { t with
          timer := t.period
          seq := if 0 < t.length ∧ 0 < t.lin.toNat then BitVec.ofNat 5 (t.seq.toNat + 1) else t.seq }
      else { t with timer := t.timer - 1 } := by
  simp only [Triangle.clockTimer, eq_zero_iff_toNat, add_one_eq_ofNat]

/-! ### The sweep (R509) -/

/-- The swept period as arithmetic. -/
def Pulse.sweepTarget (p : Pulse) (first : Bool) : Int :=
  if p.swNeg then (p.period.toNat : Int) - (p.period.toNat / 2 ^ p.swShift.toNat : Nat) -
      if first then 1 else 0
  else (p.period.toNat : Int) + (p.period.toNat / 2 ^ p.swShift.toNat : Nat)

theorem Pulse.target_eq (p : Pulse) (first : Bool) : p.target first = p.sweepTarget first := by
  have more : (bitNat first : Int) = if first then 1 else 0 := by cases first <;> rfl
  simp only [Pulse.target, Pulse.sweepTarget, more, BitVec.toNat_ushiftRight, Nat.shiftRight_eq_div_pow]

theorem Pulse.muted_iff (p : Pulse) (first : Bool) :
    p.muted first = true ↔ p.period.toNat < 8 ∨ 2047 < p.sweepTarget first := by
  rw [Pulse.muted, Bool.or_eq_true, decide_eq_true_iff, decide_eq_true_iff, p.target_eq]

/-- A period below 2048 is kept whole. -/
theorem toNat_sweptPeriod {n : Int} (h : n ≤ 2047) : ((BitVec.ofInt 11 (max n 0)).toNat : Int) = max n 0 := by
  rw [BitVec.toNat_ofInt]
  omega

/-- The period moves only when the divider is at 0, the sweep enabled and shifted, and the pulse not muted. -/
theorem Pulse.clockSweep_period (p : Pulse) (first : Bool) :
    ((p.clockSweep first).period.toNat : Int) =
      if p.swDiv.toNat = 0 ∧ p.swEn = true ∧ p.swShift.toNat ≠ 0 ∧
          ¬(p.period.toNat < 8 ∨ 2047 < p.sweepTarget first) then max (p.sweepTarget first) 0
      else p.period.toNat := by
  have period : (p.clockSweep first).period =
      if p.swDiv.toNat = 0 ∧ p.swEn = true ∧ p.swShift.toNat ≠ 0 ∧
          ¬(p.period.toNat < 8 ∨ 2047 < p.sweepTarget first) then
        BitVec.ofInt 11 (max (p.sweepTarget first) 0)
      else p.period := by
    have quiet : p.muted first = false ↔ ¬(p.period.toNat < 8 ∨ 2047 < p.sweepTarget first) := by
      rw [← p.muted_iff, Bool.not_eq_true]
    unfold Pulse.clockSweep
    simp only [apply_ite Pulse.period, ite_self, Bool.and_eq_true, Bool.not_eq_true', decide_eq_true_eq, ne_eq,
      eq_zero_iff_toNat, p.target_eq, quiet, and_assoc]
  rw [period]
  split
  case isTrue fires =>
    obtain ⟨-, -, -, heard⟩ := fires
    exact toNat_sweptPeriod (by omega)
  case isFalse => rfl

theorem Pulse.clockSweep_divider (p : Pulse) (first : Bool) :
    (p.clockSweep first).swDiv.toNat =
        (if p.swDiv.toNat = 0 ∨ p.swReload = true then p.swPeriod.toNat else p.swDiv.toNat - 1) ∧
      (p.clockSweep first).swReload = false := by
  unfold Pulse.clockSweep
  simp only [eq_zero_iff_toNat]
  split
  case isTrue => exact ⟨rfl, rfl⟩
  case isFalse counts =>
    obtain ⟨running, quiet⟩ := not_or.1 counts
    exact ⟨toNat_sub_one (by omega), by simpa using quiet⟩

/-! ### The DMC output unit (R522) -/

theorem toNat_dmcLevel (up : Bool) (level : BitVec 7) :
    (dmcLevel up level).toNat =
      if up then (if level.toNat ≤ 125 then level.toNat + 2 else level.toNat)
      else (if 2 ≤ level.toNat then level.toNat - 2 else level.toNat) := by
  have := level.isLt
  unfold dmcLevel
  split <;> split
  case isTrue.isTrue => bv_omega
  case isFalse.isTrue => bv_omega
  all_goals rfl

section
variable (d : Dmc)

/-- The level after one output bit (R522). -/
def Dmc.movedLevel : BitVec 7 := if d.silence then d.level else dmcLevel (bitOf d.shifter 0) d.level

theorem Dmc.clockOutput_level : d.clockOutput.level = d.movedLevel := by
  unfold Dmc.clockOutput
  dsimp only
  split
  · split <;> rfl
  · rfl

/-- A bit that is not the last of its byte (R522). -/
theorem Dmc.clockOutput_middle (h : 1 < d.bitsLeft) :
    d.clockOutput =
      { d with level := d.movedLevel, shifter := d.shifter >>> 1, bitsLeft := d.bitsLeft - 1 } :=
  if_neg (by dsimp only; omega)

/-- The last bit of a byte takes the buffer, if it holds a byte (R522). -/
theorem Dmc.clockOutput_last (h : d.bitsLeft = 1) :
    d.clockOutput =
      { d with
        level := d.movedLevel, bitsLeft := 8, silence := d.buffer.isNone
        shifter := d.buffer.getD (d.shifter >>> 1), buffer := none } := by
  refine (if_pos (by dsimp only; omega)).trans ?_
  dsimp only
  split
  case h_1 empty => rw [empty]; rfl
  case h_2 b full => rw [full]; rfl

end

/-- The level moves by 2 for a bit, and not at all in silence (R522). -/
theorem Dmc.toNat_movedLevel (d : Dmc) :
    let n := d.level.toNat
    d.movedLevel.toNat =
      if d.silence then n
      else if decide (d.shifter.toNat % 2 = 1) then (if n ≤ 125 then n + 2 else n)
      else (if 2 ≤ n then n - 2 else n) := by
  intro n
  have bit : bitOf d.shifter 0 = decide (d.shifter.toNat % 2 = 1) := by
    rw [bitOf_eq, Nat.pow_zero, Nat.div_one]
  unfold Dmc.movedLevel
  split
  · rfl
  · rw [toNat_dmcLevel, bit]

/-! ### The envelope (R506) -/

theorem Envelope.clock_start {e : Envelope} (start : e.start = true) (loop : Bool) :
    e.clock loop = { e with start := false, level := 15, div := e.vol } := if_pos start

theorem Envelope.clock_step {e : Envelope} (running : e.start = false) (zero : e.div.toNat = 0) (loop : Bool) :
    e.clock loop =
      { e with
        div := e.vol, level := if 0 < e.level.toNat then e.level - 1 else if loop then 15 else e.level } := by
  unfold Envelope.clock
  rw [if_neg (Bool.eq_false_iff.1 running), if_pos ((eq_zero_iff_toNat _).2 zero)]

theorem Envelope.clock_wait {e : Envelope} (running : e.start = false) (waits : 0 < e.div.toNat) (loop : Bool) :
    e.clock loop = { e with div := e.div - 1 } := by
  unfold Envelope.clock
  rw [if_neg (Bool.eq_false_iff.1 running), if_neg (by rw [eq_zero_iff_toNat]; omega)]

theorem Triangle.clockLinear_lin (t : Triangle) :
    t.clockLinear.lin.toNat = if t.linReload then t.linReloadVal.toNat else t.lin.toNat - 1 := by
  unfold Triangle.clockLinear
  dsimp only
  split
  · rfl
  · split
    · exact toNat_sub_one ‹_›
    · omega

/-- Settles O49: unit by unit. -/
theorem audioUnitClocks : Obligations.AudioUnitClocks := by
  refine ⟨fun a => ⟨rfl, rfl⟩, fun a r => ?timers, ⟨fun e loop => ?envelope, clockLength_eq, fun t => ?linear,
    fun p first => ?sweep⟩, fun mode l => toNat_shiftLfsr mode l, fun d bits => ?output⟩
  case timers =>
    intro noiseTimes dmcTimes pulse t triangle n noise d dmc
    have triangles : a.triangle.clockTimer = triangle := t.clockTimer_eq
    have pulses (p : Pulse) : p.clockTimer = pulse p := p.clockTimer_eq
    have noises : a.noise.clockTimer r = noise := by cases r <;> rfl
    have dmcs : a.dmc.clockTimer r = dmc := by cases r <;> rfl
    simp only [clockTimers, triangles, pulses, noises, dmcs]
  case envelope =>
    refine ⟨fun start => Envelope.clock_start start loop, fun running zero => ?_, fun running waits => ?_, ?_⟩
    · rw [Envelope.clock_step running zero]
      refine ⟨rfl, running, ?_⟩
      dsimp only
      split
      · exact toNat_sub_one ‹_›
      · split
        · rfl
        · omega
    · rw [Envelope.clock_wait running waits]
      exact ⟨toNat_sub_one waits, rfl, running⟩
    · rw [Envelope.output]
      split <;> rfl
  case linear =>
    refine ⟨t.clockLinear_lin, ?_⟩
    unfold Triangle.clockLinear
    cases t.control <;> simp
  case sweep =>
    exact ⟨p.muted_iff first, p.clockSweep_period first, p.clockSweep_divider first⟩
  case output =>
    intro n up moved
    have level : d.movedLevel.toNat = moved := d.toNat_movedLevel
    have shifted : (d.shifter >>> 1).toNat = d.shifter.toNat / 2 := by
      rw [BitVec.toNat_ushiftRight, Nat.shiftRight_eq_div_pow, Nat.pow_one]
    refine ⟨by rw [d.clockOutput_level, level], fun middle => ?_, fun last => ?_⟩
    · rw [d.clockOutput_middle middle]
      exact ⟨rfl, shifted, rfl, rfl⟩
    · rw [d.clockOutput_last last]
      refine ⟨rfl, rfl, rfl, fun empty => ?_, fun b full => ?_⟩
      · rw [empty]
        exact shifted
      · rw [full]
        rfl

end Sys2Proof.Machine
end

section
/-! PROOF. What the invariants of a run start from (R115, R570, R590). -/

namespace Sys2Proof.Machine

theorem Video.Ok.reset (oam : Memory) : (Video.reset oam).Ok where
  scanline := Nat.le_refl 261
  dot := Nat.zero_le 340
  stage := rfl
  count := Nat.zero_le 8
  order := List.Pairwise.nil
  range _ hi := absurd hi List.not_mem_nil

theorem Audio.Ok.reset (r : Region) : Audio.reset.Ok r where
  cycle := Nat.zero_le _
  pulse1 := Nat.zero_le _
  pulse2 := Nat.zero_le _
  triangle := Nat.zero_le _
  noise := Nat.zero_le _
  lfsr := by decide
  startAddr := by decide
  startLen := by decide
  curAddr := by decide
  remaining := Nat.zero_le _
  bitsLeft := by decide
  tapPos := firDecimation_pos r

section
variable (l : Launch) (regs : MapperRegs)

theorem powerOn_enginesOk : (State.powerOn l regs).EnginesOk where
  video := Video.Ok.reset l.oam
  audio := Audio.Ok.reset l.cart.region
  sched := ⟨divider_pos _ _, divider_pos _ _, divider_pos _ _⟩

theorem powerOn_linesAgree : (State.powerOn l regs).LinesAgree := ⟨rfl, rfl, rfl, fun _ => rfl, fun _ => rfl⟩

end

theorem valid_of_startSession {l : Launch} {s : State} (h : startSession l = .ok s) : l.cart.valid = true := by
  unfold startSession at h
  split at h
  · cases h
  case isFalse valid => exact eq_true_of_ne_false valid

/-- The variant of an id in its reset state belongs to that id, and its banks are the first (R115). -/
theorem ofId_inBounds {c : Cartridge} (hc : c.valid = true) {id : Nat} {regs : MapperRegs}
    (h : MapperRegs.ofId id = some regs) : regs.id = id ∧ regs.inBounds c = true := by
  unfold MapperRegs.ofId at h
  split at h <;> cases h
  · exact ⟨rfl, rfl⟩
  · exact ⟨rfl, rfl⟩
  · exact ⟨rfl, decide_eq_true (Cartridge.one_le_prgBanks hc)⟩
  · exact ⟨rfl, rfl⟩

theorem startSession_mapperOk {l : Launch} {s : State} (h : startSession l = .ok s) : s.mapperOk = true := by
  have valid := valid_of_startSession h
  obtain ⟨regs, variant, rfl⟩ := startSession_ok h
  obtain ⟨id, bounds⟩ := ofId_inBounds valid variant
  exact State.mapperOk_iff.2 ⟨valid, id, bounds⟩

/-- Settles O57: the machine of `State.reset` is the one a blank launch gives, and every launch powers on in
the invariants. -/
theorem resetMeetsTheInvariants : Obligations.ResetMeetsTheInvariants := by
  have blank : startSession Launch.blank = .ok State.reset := rfl
  refine ⟨⟨by decide, startSession_mapperOk blank, powerOn_enginesOk _ _, powerOn_linesAgree _ _⟩,
    fun l s h => ⟨?engines, ?lines, startSession_mapperOk h, fun canonical => ?memories⟩⟩
  all_goals obtain ⟨regs, -, rfl⟩ := startSession_ok h
  case engines => exact powerOn_enginesOk l regs
  case lines => exact powerOn_linesAgree l regs
  case memories => rwa [Bool.decide_eq_true] at canonical

end Sys2Proof.Machine
end

section
/-! PROOF. What a step of the processor leaves of the other engines (R107, R561): the Audio Engine's timers,
sequencers and filter move only in its own step. -/

namespace Sys2Proof.Machine

/-! ### What register accesses leave of the Audio Engine -/

/-- The timers, sequencers and filter of `b` stand where those of `a` stand. -/
structure Audio.SameRun (a b : Audio) : Prop where
  pulse1 : b.pulse1.timer = a.pulse1.timer
  pulse2 : b.pulse2.timer = a.pulse2.timer
  triangle : b.triangle.timer = a.triangle.timer
  triangleSeq : b.triangle.seq = a.triangle.seq
  noise : b.noise.timer = a.noise.timer
  lfsr : b.noise.lfsr = a.noise.lfsr
  dmc : b.dmc.timer = a.dmc.timer
  buffer : b.dmc.buffer = a.dmc.buffer
  shifter : b.dmc.shifter = a.dmc.shifter
  bitsLeft : b.dmc.bitsLeft = a.dmc.bitsLeft
  silence : b.dmc.silence = a.dmc.silence
  tapPos : b.tapPos = a.tapPos
  acc : b.acc = a.acc

theorem Audio.SameRun.refl (a : Audio) : a.SameRun a := by
  constructor <;> rfl

theorem ReadKeeps.sameRun {s t : State} (k : ReadKeeps s t) {a : Audio} (h : a.SameRun s.audio) :
    a.SameRun t.audio := by
  obtain ⟨f, g, audio⟩ := k.audio
  rw [audio]
  exact { h with }

theorem Pulse.clockSweep_timer (p : Pulse) (first : Bool) : (p.clockSweep first).timer = p.timer := by
  unfold Pulse.clockSweep
  dsimp only
  split <;> rfl

theorem Pulse.writeReg_timer (p : Pulse) (off : BitVec 2) (v : Byte) : (p.writeReg off v).timer = p.timer := by
  unfold Pulse.writeReg
  split <;> rfl

section
variable {a b : Audio} (h : a.SameRun b)
include h

theorem Audio.SameRun.quarterClock : a.SameRun (quarterClock b) := { h with }

theorem Audio.SameRun.halfClock : a.SameRun (halfClock b) :=
  { h with
    pulse1 := (b.pulse1.clockSweep_timer true).trans h.pulse1
    pulse2 := (b.pulse2.clockSweep_timer false).trans h.pulse2 }

theorem Audio.SameRun.triangleWrite (off : BitVec 2) (v : Byte) :
    a.SameRun { b with triangle := b.triangle.writeReg off v } := by
  unfold Triangle.writeReg
  split <;> exact { h with }

theorem Audio.SameRun.noiseWrite (off : BitVec 2) (v : Byte) :
    a.SameRun { b with noise := b.noise.writeReg off v } := by
  unfold Noise.writeReg
  split <;> exact { h with }

theorem Audio.SameRun.dmcWrite (off : BitVec 2) (v : Byte) :
    a.SameRun { b with dmc := b.dmc.writeReg off v } := by
  unfold Dmc.writeReg
  split <;> exact { h with }

end

section
variable {s : State} {a : Audio} (h : a.SameRun s.audio)
include h

theorem writeChannel_sameRun (reg : BitVec 5) (v : Byte) : a.SameRun (writeChannel s reg v).audio := by
  unfold writeChannel
  dsimp only
  split
  · exact { h with pulse1 := (Pulse.writeReg_timer _ _ v).trans h.pulse1 }
  · exact { h with pulse2 := (Pulse.writeReg_timer _ _ v).trans h.pulse2 }
  · exact h.triangleWrite _ v
  · exact h.noiseWrite _ v
  · split <;> exact h.dmcWrite _ v

theorem writeChannelEnable_sameRun (v : Byte) : a.SameRun (writeChannelEnable s v).audio := by
  unfold writeChannelEnable
  simp only [setDmcIrq, State.setIrq_audio, State.setAudio_audio, enabledDmc_eq]
  exact { h with }

theorem writeFrameControl_sameRun (v : Byte) : a.SameRun (writeFrameControl s v).audio := by
  have started (f : FrameSeq) : a.SameRun { s.audio with frame := f } := { h with }
  rw [writeFrameControl_audio]
  dsimp only
  split
  · exact (started _).quarterClock.halfClock
  · exact started _

end

theorem spriteCopy_sameRun (page : Byte) {a : Audio} (n : Nat) :
    ∀ {s : State}, a.SameRun s.audio → a.SameRun (spriteCopy page n s).audio := by
  induction n with
  | zero => exact id
  | succ n ih => exact fun h => ih ((busRead_keeps _ _).sameRun h)

/-- A bus write moves no timer, sequencer or filter of the Audio Engine (R107). -/
theorem busWrite_sameRun {s : State} {a : Audio} (h : a.SameRun s.audio) (addr : Word) (v : Byte) :
    a.SameRun (busWrite s addr v).audio := by
  unfold busWrite
  cases windowOf addr with
  | ram | gap => exact h
  | video reg => dsimp only; rw [writeVideoRegister_audio]; exact h
  | channel reg => exact writeChannel_sameRun h reg v
  | spriteDma =>
    simp only [spriteDma, skipCycles, State.setPending_audio]
    exact spriteCopy_sameRun v 256 h
  | audioStatus => exact writeChannelEnable_sameRun h v
  | pad0 => unfold writeStrobe; dsimp only; split <;> exact h
  | pad1 => exact writeFrameControl_sameRun h v
  | saveRam cell => unfold writeSaveRam; dsimp only; split <;> exact h
  | rom => unfold writeMapper; dsimp only; split <;> exact h

/-! ### What the processor's accesses keep, its step keeps -/

/-- The property `I` of states is kept by everything a step of the processor is made of. -/
structure KeptByProcessor (I : State → Prop) : Prop where
  read : ∀ {s} addr, I s → I (busRead s addr).state
  write : ∀ {s} addr v, I s → I (busWrite s addr v)
  setCpu : ∀ {s} {c : Cpu}, I s → I (s.setCpu c)

section
variable {I : State → Prop} (K : KeptByProcessor I)
include K

theorem KeptByProcessor.keptByOps (i : Instr) : KeptByOps i I where
  read := K.read
  write := K.write
  setPending _ h := K.setCpu h
  setA _ _ _ h := K.setCpu h
  setX _ _ _ h := K.setCpu h
  setY _ _ _ h := K.setCpu h
  setSp _ _ _ h := K.setCpu h
  setPc _ _ _ h := K.setCpu h
  setP _ h := K.setCpu h

theorem KeptByProcessor.fetch8 {s : State} (h : I s) : I (fetch8 s).state := K.setCpu (K.read _ h)

theorem KeptByProcessor.fetchInstr {s : State} (h : I s) : I (fetchInstr s).state := by
  unfold Machine.fetchInstr
  dsimp only
  split
  · exact K.fetch8 h
  · exact K.fetch8 (K.fetch8 h)
  · exact K.fetch8 (K.fetch8 (K.fetch8 h))

theorem KeptByProcessor.interrupt {s : State} (k : InterruptKind) (n : Nat) (h : I s) :
    I (charge (takeInterrupt k s) n) :=
  (K.keptByOps .brk).charge n ((K.keptByOps .brk).takeInterrupt k h)

theorem KeptByProcessor.processorStep {s t : State} (h : I s) (ht : processorStep s = .next t) : I t := by
  obtain idle | due := Nat.eq_zero_or_pos s.cpu.pending
  · rw [processorStep_due idle] at ht
    unfold executionStep at ht
    split at ht
    · rw [Host.Outcome.next.injEq] at ht
      exact ht ▸ K.interrupt .nmi 7 (K.setCpu h)
    · rw [Host.Outcome.next.injEq] at ht
      exact ht ▸ K.interrupt .irq 7 h
    · exact (K.keptByOps _).exec (K.fetchInstr h) ht
  · rw [processorStep_idle due] at ht
    cases ht
    exact K.setCpu h

end

/-- The processor leaves what the host was given, the position of the Video Engine and the run of the
Audio Engine. -/
structure State.SameDevices (s t : State) : Prop where
  out : t.out = s.out
  dot : t.video.dot = s.video.dot
  scanline : t.video.scanline = s.video.scanline
  audio : s.audio.SameRun t.audio

theorem keptByProcessor_sameDevices (s : State) : KeptByProcessor s.SameDevices where
  read addr h :=
    have k := busRead_keeps _ addr
    ⟨k.out.trans h.out, k.dot.trans h.dot, k.scanline.trans h.scanline, k.sameRun h.audio⟩
  write addr v h :=
    have k := busWrite_keeps _ addr v
    ⟨k.out.trans h.out, k.dot.trans h.dot, k.scanline.trans h.scanline, busWrite_sameRun h.audio addr v⟩
  setCpu h := { h with }

theorem processorStep_sameDevices {s t : State} (h : processorStep s = .next t) : s.SameDevices t :=
  (keptByProcessor_sameDevices s).processorStep ⟨rfl, rfl, rfl, .refl _⟩ h

end Sys2Proof.Machine
end

section
/-! PROOF. The tick: the dividers, and what an engine not due keeps (R561). -/

namespace Sys2Proof.Machine

/-! ### One engine's part of a tick -/

theorem Sched.counter_withCounter_of_ne {e e' : Engine} (h : e ≠ e') (c : Sched) (n : Nat) :
    (c.withCounter e n).counter e' = c.counter e' := by
  cases e <;> cases e' <;> simp_all [Sched.counter, Sched.withCounter]

theorem Sched.counter_withCounter (c : Sched) (e : Engine) (n : Nat) : (c.withCounter e n).counter e = n := by
  cases e <;> rfl

theorem keptByEngines_sched (c : Sched) : KeptByEngines fun s => s.sched = c where
  read addr h := (busRead_keeps _ addr).sched.trans h
  write addr v h := (busWrite_keeps _ addr v).sched.trans h
  setCpu _ h := h
  videoStep h := (videoStep_keeps _).sched.trans h
  audioStep h ht := (audioStep_keeps ht).sched.trans h

theorem stepEngine_sched {e : Engine} {s t : State} (h : stepEngine e s = .next t) : t.sched = s.sched :=
  (keptByEngines_sched s.sched).stepEngine rfl h

/-- An engine's part of a tick: its step with the divider set again, or the divider counted down. -/
theorem tickEngine_next {e : Engine} {s t : State} (h : tickEngine e s = .next t) :
    (s.sched.counter e = 0 ∧
        ∃ u, stepEngine e s = .next u ∧ t = setCounter e (divider s.cart.region e - 1) u) ∨
      (s.sched.counter e ≠ 0 ∧ t = setCounter e (s.sched.counter e - 1) s) := by
  unfold tickEngine at h
  split at h
  case isTrue due =>
    obtain ⟨u, hu, ht⟩ := andThen_next h
    cases ht
    exact .inl ⟨due, u, hu, rfl⟩
  case isFalse waits =>
    cases h
    exact .inr ⟨waits, rfl⟩

/-- A divider counter after a tick (R561). -/
def Sched.after (c : Sched) (r : Region) (e : Engine) : Nat :=
  if c.counter e = 0 then divider r e - 1 else c.counter e - 1

theorem tickEngine_sched {e : Engine} {s t : State} (h : tickEngine e s = .next t) :
    t.sched = s.sched.withCounter e (s.sched.after s.cart.region e) := by
  unfold Sched.after
  obtain ⟨due, u, hu, rfl⟩ | ⟨waits, rfl⟩ := tickEngine_next h
  · rw [if_pos due, ← stepEngine_sched hu]
    rfl
  · rw [if_neg waits]
    rfl

theorem tickEngine_cart {e : Engine} {s t : State} (h : tickEngine e s = .next t) : t.cart = s.cart :=
  ((keptByTick_hasSession s.cart s.params).tickEngine ⟨rfl, rfl⟩ h).1

/-! ### The engines that rest -/

/-- An engine that makes no step at its next part of a tick; a processor with cycles pending only counts one
down (R400). -/
def State.Rests (s : State) : Engine → Prop
  | .processor => s.sched.divProcessor ≠ 0 ∨ 0 < s.cpu.pending
  | .video => s.sched.divVideo ≠ 0
  | .audio => s.sched.divAudio ≠ 0

theorem tickEngine_pending {e : Engine} (other : e ≠ .processor) {s t : State} (h : tickEngine e s = .next t) :
    s.cpu.pending ≤ t.cpu.pending := by
  obtain ⟨-, u, hu, rfl⟩ | ⟨-, rfl⟩ := tickEngine_next h
  · cases e with
    | processor => exact absurd rfl other
    | video =>
      cases hu
      exact Nat.le_of_eq (congrArg Cpu.pending (videoStep_keeps s).cpu).symm
    | audio => exact (audioStep_keeps hu).pending
  · exact Nat.le_refl _

/-- Another engine's part wakes no engine. -/
theorem tickEngine_rests {e e' : Engine} (other : e ≠ e') {s t : State} (h : tickEngine e s = .next t)
    (rests : s.Rests e') : t.Rests e' := by
  have counter : t.sched.counter e' = s.sched.counter e' := by
    rw [tickEngine_sched h, Sched.counter_withCounter_of_ne other]
  cases e' with
  | processor => exact rests.imp (counter.trans_ne ·) (Nat.lt_of_lt_of_le · (tickEngine_pending other h))
  | video | audio => exact counter.trans_ne rests

/-- What each engine's part keeps while the engines `R` rest, a whole tick in which they rest keeps. -/
theorem tickEngines_keeps {R : Engine → Prop} {I : State → Prop}
    (keeps : ∀ {e u v}, tickEngine e u = .next v → (R e → u.Rests e) → I u → I v) {es : List Engine}
    (once : es.Nodup) {s t : State} (rests : ∀ e ∈ es, R e → s.Rests e) (h : I s)
    (ht : tickEngines es s = .next t) : I t := by
  induction es generalizing s with
  | nil => cases ht; exact h
  | cons e es ih =>
    obtain ⟨u, hu, hk⟩ := andThen_next ht
    obtain ⟨new, once⟩ := List.nodup_cons.1 once
    have others : ∀ e' ∈ es, R e' → u.Rests e' := fun e' he' hr =>
      tickEngine_rests (fun same => new (by rwa [same])) hu (rests e' (List.mem_cons_of_mem e he') hr)
    exact ih once others (keeps hu (rests e List.mem_cons_self) h) hk

/-- Each engine's counter is set once in a tick (R561). -/
theorem tickEngines_counter {es : List Engine} (once : es.Nodup) {s t : State} (ht : tickEngines es s = .next t)
    (e' : Engine) :
    t.sched.counter e' = if e' ∈ es then s.sched.after s.cart.region e' else s.sched.counter e' := by
  induction es generalizing s with
  | nil => cases ht; exact (if_neg List.not_mem_nil).symm
  | cons e es ih =>
    obtain ⟨u, hu, hk⟩ := andThen_next ht
    obtain ⟨new, once⟩ := List.nodup_cons.1 once
    rw [ih once hk, tickEngine_cart hu]
    by_cases same : e = e'
    · subst same
      rw [if_neg new, if_pos List.mem_cons_self, tickEngine_sched hu, Sched.counter_withCounter]
    · have counter : u.sched.counter e' = s.sched.counter e' := by
        rw [tickEngine_sched hu, Sched.counter_withCounter_of_ne same]
      have member : e' ∈ e :: es ↔ e' ∈ es := by simp [Ne.symm same]
      simp only [member, Sched.after, counter]

/-! ### A whole tick -/

theorem orderOf_nodup (o : EngineOrder) : (orderOf o).Nodup := by
  cases o <;> decide

theorem mem_orderOf (o : EngineOrder) (e : Engine) : e ∈ orderOf o := by
  cases o <;> cases e <;> decide

theorem step_counter {s t : State} (h : step s = .next t) (e : Engine) :
    t.sched.counter e = s.sched.after s.cart.region e := by
  rw [tickEngines_counter (orderOf_nodup _) h, if_pos (mem_orderOf _ e)]
  rfl

/-- What each engine's part keeps while the engines `R` rest, a step in which they rest keeps. -/
theorem step_keeps {R : Engine → Prop} {I : State → Prop}
    (keeps : ∀ {e u v}, tickEngine e u = .next v → (R e → u.Rests e) → I u → I v) {s t : State}
    (ht : step s = .next t) (rests : ∀ e, R e → s.Rests e) (h : I (s.setOut Output.none)) : I t :=
  tickEngines_keeps keeps (orderOf_nodup _)
    (fun e _ hr => by have := rests e hr; cases e <;> exact this) h ht

/-! ### What is kept -/

/-- A resting processor counts its divider or its pending cycles down. -/
theorem tickEngine_restingProcessor {s t : State} (rests : s.Rests .processor)
    (h : tickEngine .processor s = .next t) : ∃ n c, t = (s.setPending n).setSched c := by
  obtain ⟨due, u, hu, rfl⟩ | ⟨-, rfl⟩ := tickEngine_next h
  · have idle : 0 < s.cpu.pending := rests.resolve_left (fun waits => waits due)
    rw [stepEngine, processorStep_idle idle] at hu
    cases hu
    exact ⟨_, _, rfl⟩
  · exact ⟨s.cpu.pending, _, rfl⟩

/-- The registers of the processor are the same. -/
def State.SameRegisters (s t : State) : Prop :=
  t.cpu.a = s.cpu.a ∧ t.cpu.x = s.cpu.x ∧ t.cpu.y = s.cpu.y ∧ t.cpu.sp = s.cpu.sp ∧ t.cpu.pc = s.cpu.pc ∧
    t.cpu.p = s.cpu.p

theorem tickEngine_registers {s : State} {e : Engine} {u v : State} (h : tickEngine e u = .next v)
    (rests : e = .processor → u.Rests e) (same : s.SameRegisters u) : s.SameRegisters v := by
  cases e with
  | processor =>
    obtain ⟨n, c, rfl⟩ := tickEngine_restingProcessor (rests rfl) h
    exact same
  | video =>
    obtain ⟨-, w, hw, rfl⟩ | ⟨-, rfl⟩ := tickEngine_next h
    · cases hw
      unfold State.SameRegisters
      rw [setCounter, State.setSched_cpu, (videoStep_keeps u).cpu]
      exact same
    · exact same
  | audio =>
    obtain ⟨-, w, hw, rfl⟩ | ⟨-, rfl⟩ := tickEngine_next h
    · have k := audioStep_keeps hw
      obtain ⟨a, x, y, sp, pc, p⟩ := same
      exact ⟨k.a.trans a, k.x.trans x, k.y.trans y, k.sp.trans sp, k.pc.trans pc, k.p.trans p⟩
    · exact same

theorem tickEngine_audio {s : State} {e : Engine} {u v : State} (h : tickEngine e u = .next v)
    (rests : e ≠ .video → u.Rests e) (same : u.audio = s.audio) : v.audio = s.audio := by
  cases e with
  | processor =>
    obtain ⟨n, c, rfl⟩ := tickEngine_restingProcessor (rests nofun) h
    exact same
  | video =>
    obtain ⟨-, w, hw, rfl⟩ | ⟨-, rfl⟩ := tickEngine_next h
    · cases hw
      exact (videoStep_keeps u).audio.trans same
    · exact same
  | audio =>
    obtain ⟨due, -⟩ | ⟨-, rfl⟩ := tickEngine_next h
    · exact absurd due (rests nofun)
    · exact same

/-- The Video Engine's position, and what it gave the host, are the same. -/
structure State.SamePicture (s t : State) : Prop where
  dot : t.video.dot = s.video.dot
  scanline : t.video.scanline = s.video.scanline
  pixel : t.out.pixel = s.out.pixel
  redraw : t.out.redraw = s.out.redraw

/-- A step of the Audio Engine gives the host at most a sample (R542). -/
theorem audioStep_out {s t : State} (h : audioStep s = .next t) :
    t.out = { s.out with sample := t.out.sample } := by
  obtain ⟨u, hu, rfl⟩ := audioStep_next h
  have out : u.out = s.out := (dmcReader_writeKeeps hu).out
  have finish := congrArg State.out (finishAudioStep_eq u)
  rw [← out]
  exact finish

theorem tickEngine_picture {s : State} {e : Engine} {u v : State} (h : tickEngine e u = .next v)
    (rests : e = .video → u.Rests e) (same : s.SamePicture u) : s.SamePicture v := by
  obtain ⟨due, w, hw, rfl⟩ | ⟨-, rfl⟩ := tickEngine_next h
  · cases e with
    | processor =>
      have k := processorStep_sameDevices hw
      exact ⟨k.dot.trans same.dot, k.scanline.trans same.scanline,
        (congrArg Output.pixel k.out).trans same.pixel, (congrArg Output.redraw k.out).trans same.redraw⟩
    | video => exact absurd due (rests rfl)
    | audio =>
      have k := audioStep_keeps hw
      have out := audioStep_out hw
      exact ⟨k.dot.trans same.dot, k.scanline.trans same.scanline,
        (congrArg Output.pixel out).trans same.pixel, (congrArg Output.redraw out).trans same.redraw⟩
  · exact { same with }

/-- The run of the Audio Engine, and what it gave the host, are the same. -/
structure State.SameSound (s t : State) : Prop where
  run : s.audio.SameRun t.audio
  sample : t.out.sample = s.out.sample

theorem Audio.SameRun.trans {a b c : Audio} (h : a.SameRun b) (k : b.SameRun c) : a.SameRun c where
  pulse1 := k.pulse1.trans h.pulse1
  pulse2 := k.pulse2.trans h.pulse2
  triangle := k.triangle.trans h.triangle
  triangleSeq := k.triangleSeq.trans h.triangleSeq
  noise := k.noise.trans h.noise
  lfsr := k.lfsr.trans h.lfsr
  dmc := k.dmc.trans h.dmc
  buffer := k.buffer.trans h.buffer
  shifter := k.shifter.trans h.shifter
  bitsLeft := k.bitsLeft.trans h.bitsLeft
  silence := k.silence.trans h.silence
  tapPos := k.tapPos.trans h.tapPos
  acc := k.acc.trans h.acc

theorem tickEngine_sound {s : State} {e : Engine} {u v : State} (h : tickEngine e u = .next v)
    (rests : e = .audio → u.Rests e) (same : s.SameSound u) : s.SameSound v := by
  obtain ⟨due, w, hw, rfl⟩ | ⟨-, rfl⟩ := tickEngine_next h
  · cases e with
    | processor =>
      have k := processorStep_sameDevices hw
      exact ⟨same.run.trans k.audio, (congrArg Output.sample k.out).trans same.sample⟩
    | video =>
      cases hw
      have audio : u.audio.SameRun (videoStep u).audio := (videoStep_keeps u).audio ▸ .refl _
      exact ⟨same.run.trans audio, (congrArg Output.sample (videoStep_out u)).trans same.sample⟩
    | audio => exact absurd due (rests rfl)
  · exact { same with }

theorem andThen_next_right (r : Result) : andThen r .next = r := by
  cases r <;> rfl

/-- The parts of three engines, one after the other. -/
theorem tickEngines_three (e1 e2 e3 : Engine) (s : State) :
    tickEngines [e1, e2, e3] s =
      andThen (tickEngine e1 s) fun t => andThen (tickEngine e2 t) (tickEngine e3) := by
  have last : tickEngines [e3] = tickEngine e3 := funext fun s => andThen_next_right _
  simp only [← last]
  rfl

/-- Settles O51: the tick as the three engines' parts, and what each part keeps. -/
theorem schedulerDividers : Obligations.SchedulerDividers := by
  unfold Obligations.SchedulerDividers
  intro size part inOrder
  have sizes (r : Region) (e : Engine) : size r e = divider r e := by cases r <;> cases e <;> rfl
  have parts (e : Engine) : part e = tickEngine e := by
    funext s
    cases e <;> simp only [part, sizes] <;> rfl
  have orders (e1 e2 e3 : Engine) (s : State) :
      inOrder e1 e2 e3 s = tickEngines [e1, e2, e3] (s.setOut Output.none) := by
    simp only [inOrder, parts, tickEngines_three]
    rfl
  refine ⟨fun s => ?order, fun s t h => ⟨?dividers, fun rests => ?registers, fun waits => ?picture,
    fun waits => ?sound⟩⟩
  case order =>
    simp only [orders]
    unfold step tick
    cases s.params.engineOrder <;> rfl
  case dividers =>
    have counters (e : Engine) : t.sched.counter e =
        if s.sched.counter e = 0 then size s.cart.region e - 1 else s.sched.counter e - 1 := by
      rw [step_counter h, Sched.after, sizes]
    exact (Sched.mk.injEq ..).mpr ⟨counters .processor, counters .video, counters .audio⟩
  case registers =>
    have same : s.SameRegisters t :=
      step_keeps (R := (· = .processor)) tickEngine_registers h (by rintro _ rfl; exact rests)
        ⟨rfl, rfl, rfl, rfl, rfl, rfl⟩
    obtain ⟨a, x, y, sp, pc, p⟩ := same
    refine ⟨a, x, y, sp, pc, p, fun waits => ?_⟩
    refine step_keeps (R := (· ≠ .video)) (I := fun u => u.audio = s.audio) tickEngine_audio h (fun e other => ?_) rfl
    cases e with
    | processor => exact rests
    | video => exact absurd rfl other
    | audio => exact waits
  case picture =>
    have same : (s.setOut Output.none).SamePicture t :=
      step_keeps (R := (· = .video)) tickEngine_picture h (by rintro _ rfl; exact waits) ⟨rfl, rfl, rfl, rfl⟩
    exact ⟨same.dot, same.scanline, same.pixel, same.redraw⟩
  case sound =>
    have same : (s.setOut Output.none).SameSound t :=
      step_keeps (R := (· = .audio)) tickEngine_sound h (by rintro _ rfl; exact waits) ⟨.refl _, rfl⟩
    obtain ⟨run, sample⟩ := same
    exact ⟨run.pulse1, run.pulse2, run.triangle, run.triangleSeq, run.noise, run.lfsr, run.dmc, run.buffer,
      run.shifter, run.bitsLeft, run.silence, run.tapPos, run.acc, sample⟩

end Sys2Proof.Machine
end
